-- ==== Sys2Proof/Word.lean ====
section
/-! DEFINITION. The word types of the module: 64-bit registers and bytes (Two Hierarchies, Zynfer Cores). -/

namespace Sys2Proof

/-- A 64-bit general register value (chapter 03, "The core"). -/
abbrev Word := BitVec 64

/-- A byte. -/
abbrev Byte := BitVec 8

/-- Byte-addressed sparse memory in canonical form: addresses strictly rising, no entry equal to 0, the value an
unlisted address reads as (log 10). -/
abbrev Memory := List Host.Cell

end Sys2Proof
end

