-- ==== Sys2Proof/Config.lean ====
section
/-! DEFINITION. What the spec leaves to cited standards or leaves open, as opaque constants: nothing can evaluate them,
so a claim holds for every value of them. Also the fixed counts of the two variants (Table 0.1). -/

namespace Sys2Proof

/-- The two variants (R2). -/
inductive Variant where
  | wx7480
  | wx7440
deriving DecidableEq, Repr

namespace Variant

/-- Crews of eight cores (R41). -/
def crews : Variant → Nat
  | wx7480 => 8
  | wx7440 => 4

/-- Zynfer cores (Table 0.1). -/
def cores (v : Variant) : Nat := 8 * v.crews

/-- Cipher engines, and hash engines (Table 0.1). -/
def symEngines (v : Variant) : Nat := 2 * v.crews

/-- Big-number engines (Table 0.1). -/
def bneEngines (v : Variant) : Nat := 2 * v.crews

/-- Lattice engines (Table 0.1). -/
def lteEngines (v : Variant) : Nat := v.crews

/-- Host ports (Table 0.1). -/
def hostPorts : Variant → Nat
  | wx7480 => 4
  | wx7440 => 2

/-- Virtual instances (Table 0.1). -/
def instances : Variant → Nat
  | wx7480 => 4096
  | wx7440 => 2048

/-- Hardware request queues (Table 0.1). -/
def queues : Variant → Nat
  | wx7480 => 16384
  | wx7440 => 8192

/-- Concurrent sessions (Table 0.1). -/
def sessions : Variant → Nat
  | wx7480 => 65536
  | wx7440 => 32768

/-- Key-cache entries of 64 bytes (Table 0.1). -/
def cacheEntries : Variant → Nat
  | wx7480 => 524288
  | wx7440 => 262144

/-- Key records of the store (Table 0.1). -/
def keyRecords : Variant → Nat
  | wx7480 => 134217728
  | wx7440 => 67108864

/-- Size of the tamper-evidence store (R719). -/
def evidence : Variant → Nat
  | wx7480 => 2048
  | wx7440 => 64

/-- Number of the system check-value unit and of the system DRBG (R42). -/
def sysUnit (v : Variant) : Nat := v.crews

/-- Regions of protected data, 1 MiB each (Table 17.2). -/
def regions : Variant → Nat
  | wx7480 => 53248
  | wx7440 => 26624

end Variant

/-- The cryptographic functions that the spec takes from cited standards (log 15). The model keeps each as an
uninterpreted function of its inputs. -/
inductive Prim where
  | blockEnc | ecbEnc | ecbDec | cbcEnc | cbcDec | cfb8Enc | cfb8Dec | cmac
  | iso9797a1 | iso9797a3 | ff1Enc | ff1Dec | pinBlock
  | sha2 | sha3 | shake | kmac
  | kwWrap | kwUnwrap | x9143Wrap | x9143Unwrap | x9143Mac
  | dukpt | kmacKdf | cmacKdf | emvKey
  | publicPart | ecSign | ecPoint | x25519 | ed25519Sign | mlkemEncaps | mlkemSecret | mlkemDecaps
  | mldsaSign | cert | certAttest | certIdentity
  | fru | tr34 | oaep | rsaVerify | ecdh | pufSecret | pufHelper
deriving DecidableEq, Repr

/-- Byte `i` of the output of primitive `p` on the given byte-string inputs (log 15). -/
opaque Config.crypto : Prim → List (List Byte) → Nat → Byte

/-- Whether a check of a cited standard passes on the given inputs: padding, integrity value, signature, point
membership (log 15). -/
opaque Config.cryptoOk : Prim → List (List Byte) → Bool

/-- Byte `i` of the `n`-th draw of random bits (log 13). -/
opaque Config.freeByte : Nat → Nat → Byte

/-- Where DRAM holds an item's queue entry, payload and continuation record, by item serial: region, first line, number of
lines (log 9). -/
opaque Config.itemPlace : Nat → Nat × Nat × Nat

/-- Counter of a DRAM line at the read or write that finds it unlisted, by free-value number and line address: which lines the
module itself has written the spec does not say (log 9). -/
opaque Config.lineCtr : Nat → Nat → Nat

/-- Event code and severity of a Log record that the spec requires and whose code no table gives, by source block and
an arbitrary number of the place that writes it (log 17). -/
opaque Config.logEvent : Nat → Nat → Nat × Nat

/-- Next value of a Drill injector's 32-bit LFSR, whose polynomial the spec does not give (R777; log 30). -/
opaque Config.lfsrNext : BitVec 32 → BitVec 32

/-- Path on which a unit that takes a session over sends its first RESYNC: no mirrored anchor holds it (Table 16.5,
R558; log 31). -/
opaque Config.mirroredPath : Nat → Bool × Nat × Nat × Option Nat

/-- Block operations of a key derivation (by its function code) or of an X9.143 wrap or unwrap (code 0) over so many bytes:
no table counts them (log 40). -/
opaque Config.keyJobBlocks : Nat → Nat → Nat

/-- Boundary line of the oldest region sweep, by elapsed time: how fast the sweeper moves is left out (log 8). -/
opaque Config.sweepLine : Nat → Nat

/-- Failure code of a takeover that meets a fault in the key path (R649): Table 19.2 gives none (log 113). -/
opaque Config.takeoverFailure : Nat

/-- NAND blocks of the enclosure (R399), and the block that holds the sealed copy written under a write sequence (R379): the
spec lays no NAND out (log 25). -/
opaque Config.nandBlocks : Nat
opaque Config.copyBlock : Nat → Nat

/-- Erases that a NAND block's mode is rated for (R399, log 25). -/
opaque Config.ratedErases : Nat → Nat

/-- The block of the next NAND program or erase that fails (R399), and which die's program finishes first where both run (R393),
each by free-value number (log 115). -/
opaque Config.failedBlock : Nat → Nat
opaque Config.dieOneFirst : Nat → Bool

/-- Number of the record-area record that holds record `i` of a key, which its seal's IV starts with (R369; log 25). -/
opaque Config.recordNumber : Nat → Nat → Nat

/-- Bits that a PUF reconstruction corrects in a reading under helper data (R357, R359; log 15). -/
opaque Config.pufCorrected : List Byte → List Byte → Nat

/-- Encapsulation key with a recipient digest (R435): no message carries it (log 44). -/
opaque Config.recipientKey : List Byte → List Byte

/-- An instance was FAULTED on the unit that served before a takeover: no message of the pair link tells it (R344; log 106). -/
opaque Config.peerFaulted : Nat → Nat → Bool

/-- Which unpinned line a full program cache gives up at its `n`-th fill: the spec names no rule (R151; log 98). -/
opaque Config.cacheVictim : Nat → Nat

/-- Cycles that a control-space access stalls its core beyond the first, by elapsed time; at most 3,000 count (Table 4.12;
log 43). -/
opaque Config.csrStall : Nat → Nat

/-- Length in bytes of an encoded certificate: 0 identity, 1 attestation, 2 backup, 3 service (R440, R733; log 15). -/
opaque Config.certLen : Nat → Nat

/-- An X.509 certificate as its DER encodes it (Table 9.12): the SubjectPublicKeyInfo, the RSA key's length in bits, the validity
period in Meridian ticks, the signed part and the signature. -/
structure Cert where
  spki : List Byte
  bits : Nat
  notBefore : Nat
  notAfter : Nat
  tbs : List Byte
  sig : List Byte
deriving DecidableEq, Repr

/-- A TR-34 key token as its DER encodes it (Tables 9.12 and 9.13): the certificates from the KDH's to the CA's, what SignedData
signs with its signature, the random number token (two-pass) or the signing time (one-pass), the recipient identifier, the
algorithm of the ephemeral key, the OAEP ciphertext and the inner key block. -/
structure Tr34 where
  chain : List Cert
  signed : List Byte
  sig : List Byte
  token : Option (List Byte)
  signTime : Nat
  recipient : List Byte
  ephAlg : Nat
  wrapped : List Byte
  block : List Byte
deriving DecidableEq, Repr

/-- DER of a TR-34 input (Table 9.13 row 1), and of the KRD's certificates in the input of an export: none where the syntax or a
size fails (log 15). -/
opaque Config.tr34Parse : List Byte → Option Tr34
opaque Config.krdParse : List Byte → Option (List Cert)

/-- Public key of the Thapra firmware key, whose digest the boot ROM holds (R742), and digest of the Thapra service key (R748). -/
opaque Config.thapraFirmwareKey : List Byte
opaque Config.thapraServiceDigest : List Byte

/-- Length in bytes of a TR-34 token that the module makes, by ceremony number (R433; log 15). -/
opaque Config.tr34Len : Nat → Nat

/-- Output of a primitive, cut to `n` bytes. -/
def cryptoBytes (p : Prim) (inputs : List (List Byte)) (n : Nat) : List Byte :=
  (List.range n).map (Config.crypto p inputs)

/-- `n` random bytes of draw number `k`. -/
def freeBytes (k n : Nat) : List Byte :=
  (List.range n).map (Config.freeByte k)

end Sys2Proof
end

