-- ==== Sys2Proof/Syntax/Data.lean ====
section
/-! DEFINITION. The operand types of the commands: registers and core operations (chapter 04), key attributes and
records (05, 08), configuration and quorum records (07, 09, 20), frames (14, 15), pair messages (16) and the outcomes
of physical events (17-21). -/

namespace Sys2Proof

/-- General register number (03). -/
abbrev GReg := Fin 32
/-- Key handle register number (03). -/
abbrev KReg := Fin 16
/-- Core number (R41). -/
abbrev CoreId := Fin 64

/-! ### Zynfer operations (chapter 04) -/

/-- Register operations, opcode 0x00 (Table 4.4), in func order. -/
inductive RegOp where
  | add | sub | and | or | xor | andn | orn | xnor | sll | srl | sra | rol | ror | slt | sltu
  | min | max | minu | maxu | clz | ctz | popc | bswap | bswapw | bswaph | sextb | sexth | sextw | zextw
deriving DecidableEq, Repr

/-- Multiply and divide, opcode 0x01 (Table 4.5), in func order. -/
inductive MulOp where
  | mul | mulh | mulhu | mulhsu | div | divu | rem | remu
deriving DecidableEq, Repr

/-- Immediate operations, opcodes 0x05-0x0B (Table 4.6). -/
inductive ImmOp where
  | addi | andi | ori | xori | slti | sltiu | lih
deriving DecidableEq, Repr

/-- Shifts by immediate, opcode 0x0C (R173). -/
inductive ShOp where
  | slli | srli | srai | rori
deriving DecidableEq, Repr

/-- Memory spaces (Table 3.2, R175). -/
inductive Space where
  | ldm | req | rpl | con | scr
deriving DecidableEq, Repr

/-- Access widths (R175). -/
inductive Width where
  | b | h | w | d
deriving DecidableEq, Repr

/-- Branch conditions, opcodes 0x39-0x3E (Table 4.7). -/
inductive BrOp where
  | eq | ne | lt | ge | ltu | geu
deriving DecidableEq, Repr

/-- Format K operations (Table 4.8). -/
inductive KOp where
  | kload | kgen | kderive | kwrap | kunwrap | kattr | kdrop | ciph | macv | kmac
  | pkKeyed | pkPublic | ltKeyed | ltPublic
deriving DecidableEq, Repr

/-- Format S instructions (Table 4.9). -/
inductive SOp where
  | reply | done | cont | post | delay | jbegin | jput | jcommit | jabort | wait | hash
  | cvset | cvupd | cvget | cvput | rng | time | csrr | csrw
deriving DecidableEq, Repr

/-- One decoded Zynfer instruction (chapter 04). `pfx` says that a 0x3F prefix stands before it; unprefixed
immediates occupy the low 16 bits. -/
inductive Op where
  | reg (f : RegOp) (d a b : GReg)
  | mul (f : MulOp) (d a b : GReg)
  | nop
  | ret
  | jr (a : GReg)
  | callr (a : GReg)
  | imm (f : ImmOp) (d a : GReg) (pfx : Bool) (v : BitVec 32)
  | sh (f : ShOp) (d a : GReg) (n : BitVec 6)
  | stat (d : GReg) (idx : BitVec 16)
  | loop (a : GReg) (e : BitVec 16)
  | jmp (call : Bool) (off : BitVec 26)
  | mem (sp : Space) (store : Bool) (wd : Width) (d a : GReg) (pfx : Bool) (off : BitVec 32)
  | br (f : BrOp) (a b : GReg) (pfx : Bool) (off : BitVec 32)
  | key (f : KOp) (kd ka : KReg) (g gs : GReg)
  | svc (f : SOp) (d a b : GReg)
deriving DecidableEq, Repr

/-- What a DRAM access meets (Table 17.4): a physical event, so an operand of the command (log 16). -/
inductive MemEvent where
  | ok
  /-- an ECC-correctable error -/
  | corrected
  /-- a poisoned line, or an uncorrectable error or MAC failure in data line `line` of region `region` -/
  | line (region line : Nat)
  /-- an error in node `index` of level L0 to L3 of the counter tree of `region` (Table 17.3) -/
  | node (region : Nat) (level : Fin 4) (index : Nat)
  /-- an uncorrectable error in a root entry -/
  | root (region : Nat)
deriving DecidableEq, Repr

/-- What the read of a key record meets (R370): in DRAM, and whether the record's tag verifies. -/
structure RecordRead where
  mem : MemEvent
  tagOk : Bool
deriving DecidableEq, Repr

/-- The core a Zynfer instruction runs on, and what its program fetch meets (R143). -/
structure Issue where
  core : CoreId
  fetch : MemEvent := .ok
deriving DecidableEq, Repr

/-! ### Keys (chapters 05 and 08) -/

/-- Attribute descriptor (Table 5.1). -/
structure Attrs where
  alg : Nat := 0
  size : Nat := 0
  usage : Nat := 0
  engines : Nat := 0
  exportable : Bool := false
  dual : Bool := false
  persist : Bool := false
  /-- generated-inside, set by `KGEN` alone -/
  generated : Bool := false
  notBefore : Nat := 0
  notAfter : Nat := 0
deriving DecidableEq, Repr

/-- A key's name: the fields of its key ID, and for a key that is not persisted (index 0, R364) the model's own
identity of it, `uid`; 0 for a persisted key. -/
structure KeyName where
  dom : Nat
  idx : Nat
  gen : Nat
  uid : Nat := 0
deriving DecidableEq, Repr

/-- A key record (Table 8.2) with its material in clear. -/
structure KeyRec where
  name : KeyName
  attrs : Attrs
  ctrBase : Nat := 0
  ivFixed : Nat := 0
  csnCreated : Nat := 0
  csnChanged : Nat := 0
  kcv : List Byte := []
  policy : Nat := 0
  material : List Byte := []
  /-- restored from a bundle (Table 9.15) -/
  restored : Bool := false
deriving DecidableEq, Repr

/-! ### Configuration, quorum, program and profile records (Tables 7.2, 9.3, 9.5, R782) -/

/-- Share block (Table 7.3). -/
structure Share where
  weight : Nat
  ports : Nat
  sessions : Nat
  admits : Nat
  kcQuota : Nat
  c0Rate : Nat
  c0Burst : Nat
  bneCredits : Nat
  lteCredits : Nat
  faultLimit : Nat
  faultWindow : Nat
deriving DecidableEq, Repr

/-- Queue block (Table 7.4). -/
structure QBlock where
  inst : Nat
  replyCap : Nat
  depth : Nat
  budget : Nat
  c0Offset : Nat
deriving DecidableEq, Repr

/-- Officer credential (Table 9.1). -/
structure Officer where
  slot : Nat
  alg : Nat
  roles : Nat
  tag : Nat
  pkDigest : List Byte
deriving DecidableEq, Repr

/-- Policy entry (R408). -/
structure PolicyEntry where
  cls : Nat
  k : Nat
  mask : Nat
deriving DecidableEq, Repr

/-- Domain settings (Table 9.4). -/
structure Settings where
  signer : Nat := 0
  backupAllowed : Bool := false
  tr34Anchor : List Byte := []
deriving DecidableEq, Repr

/-- Usage policy entry (Table 9.4). -/
structure Usage where
  number : Nat
  classes : Nat
  fixOnly : Bool
  inst : Nat
deriving DecidableEq, Repr

/-- Profile record body (R782). -/
structure ProfileRec where
  code : Nat := 0
  blind128 : Bool := false
  vas : Nat := 0
deriving DecidableEq, Repr

/-- One record of Tables 7.2, 9.3, 9.5 or R782. -/
inductive ConfRec where
  | domainCreate (d : Nat)
  | domainDelete (d : Nat)
  | instCreate (i d : Nat) (sh : Share)
  | instDelete (i : Nat)
  | adminState (i : Nat) (enable : Bool)
  | shareChange (i : Nat) (sh : Share)
  | queueConfigure (q : Nat) (b : QBlock)
  | queueRemove (q : Nat)
  | officerSet (scope : Nat) (l : List Officer)
  | policy (scope : Nat) (l : List PolicyEntry)
  | settings (scope : Nat) (x : Settings)
  | usage (scope : Nat) (u : Usage)
  | imageLoad (d image version : Nat) (digest : List Byte)
  | imageUnload (d image version : Nat)
  | bind (d q image version : Nat)
  | unbind (d q : Nat)
  | raiseFloor (d image floor : Nat)
  | profile (p : ProfileRec)
deriving DecidableEq, Repr

/-- One record of a commit. -/
inductive Rec where
  | conf (c : ConfRec)
  | keyCreate (k : KeyRec)
  | keyAttrs (n : KeyName) (a : Attrs)
  | keyDelete (n : KeyName)
  /-- a counter reservation (R388) -/
  | reserve (n : KeyName) (base : Nat)
deriving DecidableEq, Repr

/-- Session, request ID and request digest of a commit whose chain has a retention entry (R636). -/
structure Requester where
  sess : Nat
  reqId : Nat
  digest : List Byte
deriving DecidableEq, Repr

/-- A commit: all of its records or none (R49). -/
structure Commit where
  csn : Nat
  recs : List Rec
  requester : Option Requester := none
  /-- chain digest D_n (R635) -/
  digest : List Byte := []
  /-- released while no standby was joined (R22) -/
  single : Bool := false
deriving DecidableEq, Repr

/-! ### Frames (chapters 14 and 15) -/

/-- Source of a frame: address and its family, UDP port, VLAN (R558). -/
structure Path where
  v6 : Bool := false
  ip : Nat := 0
  udp : Nat := 0
  vlan : Option Nat := none
deriving DecidableEq, Repr

/-- Destination MAC address of a frame (R544). -/
inductive MacDest where
  | own | broadcast | solicited | other
deriving DecidableEq, Repr

/-- UDP checksum of a datagram. -/
inductive UdpSum where
  | good | zero | bad
deriving DecidableEq, Repr

/-- What rows 1-4 of Table 14.1 look at below the WSP frame. -/
structure Link where
  mac : MacDest := .own
  /-- IPv4: header length in bytes, valid header checksum, MF or a fragment offset -/
  ihl : Nat := 20
  hdrSum : Bool := true
  fragment : Bool := false
  /-- IPv6: the first next-header value (17: UDP) -/
  next : Nat := 17
  dst : Nat := 0
  udpPort : Nat := 50171
  sum : UdpSum := .good
  udpLen : Nat := 0
deriving DecidableEq, Repr

/-- WSP frame header (Table 14.2). -/
structure FrameHdr where
  ver : Nat := 1
  typ : Nat := 0
  flags : Nat := 0
  rsvd : Nat := 0
  sess : Nat := 0
  seq : Nat := 0
  cumAck : Nat := 0
  sack : Nat := 0
  rwnd : Nat := 0
  plen : Nat := 0
  stamp : Nat := 0
deriving DecidableEq, Repr

/-- A received frame as it stands on the wire: the body of a protected type is ciphertext, and its tag follows (R553). Port 4
is the management port. In 1/256 tick, `frac` is how far its last bit comes into a tick, and `air` how long before that its
start-of-frame delimiter ends; `stamp` is the last-bit timestamp that the port gives it (R580). -/
structure Frame where
  port : Nat
  link : Link := {}
  path : Path := {}
  hdr : FrameHdr
  body : List Byte := []
  tag : List Byte := []
  frac : Nat := 0
  air : Nat := 0
  stamp : Nat := 0
deriving DecidableEq, Repr

/-- The frame with more bytes at the end of its body. -/
def Frame.andThen (f : Frame) (b : List Byte) : Frame := { f with body := f.body ++ b }

/-- Where an ARP request, a neighbour solicitation or an echo request comes in (R544, R545). -/
structure LinkAt where
  port : Nat
  mac : MacDest := .own
  vlan : Option Nat := none
deriving DecidableEq, Repr

/-- Session and request ID of a management message (Table 20.12). -/
structure Mgmt where
  sess : Nat
  reqId : Nat
deriving DecidableEq, Repr

/-- A message of entry 11 (Table 20.12): the request and its payload. -/
structure MgmtMsg where
  on : Mgmt
  payload : List Byte
deriving DecidableEq, Repr

/-- What the peer of a unit sends in the exchange of R621 over the pair link: its encapsulation key, its P-256 share, the
ciphertext to this unit's key, its certificate chain, its `MOD_VARIANT` variant field, and its signature of the transcript. -/
structure PairOffer where
  ek : List Byte
  share : List Byte
  ct : List Byte
  chain : List Byte
  variant : Nat
  sig : List Byte
deriving DecidableEq, Repr

/-! ### Meridian and PTP (chapter 02) -/

/-- What Table 2.1 and R70 look at in a PTP message. -/
structure PtpHdr where
  port : Nat
  transport : Nat
  domainNo : Nat
  /-- an AUTHENTICATION TLV is present and its check value verifies under the association of `spp` -/
  auth : Bool
  spp : Nat
  source : Nat
  /-- of a Pdelay_Req or Pdelay_Resp, which are event messages (R581): the 1/256 ticks that had passed, when the message was
  whole, since the end of its start-of-frame delimiter -/
  event : Option Nat
deriving DecidableEq, Repr

/-- Dataset compared by the best master clock algorithm (Table 2.1): the fields in comparison order. -/
structure Announce where
  prio1 : Nat
  clockClass : Nat
  accuracy : Nat
  variance : Nat
  prio2 : Nat
  identity : Nat
  stepsRemoved : Nat
  /-- announce interval in ticks -/
  interval : Nat
deriving DecidableEq, Repr

/-! ### Pair messages (chapter 16) -/

/-- A directory of the key store: the last generation of every index of every domain (R363). -/
abbrev Directory := List ((Nat × Nat) × Nat)

/-- A received PLP frame (Table 16.4): its header fields, and whether its CRC and its tag verify. -/
structure Plp where
  epoch : Nat
  seq : Nat
  ack : Nat
  alive : Bool
  /-- its reserved bytes 2-3 and 27-31 and bits 2-7 of byte 26 -/
  rsvd : Nat := 0
  crcOk : Bool := true
  tagOk : Bool := true
deriving DecidableEq, Repr

/-- Meridian discipline state and pair state in a HEARTBEAT (Table 16.5). -/
structure PeerState where
  state : Nat
  v : Nat
  durable : Nat
  time : Nat
  unc : Nat
  servo : Nat
  slew : Int
deriving DecidableEq, Repr

/-- A mirrored session anchor (Table 16.5). -/
structure AnchorMsg where
  sess : Nat
  port : Nat
  dom : Nat
  home : Nat
  gen : Nat
  /-- direction keys and IVs of generation `gen` -/
  keys : List Byte
  /-- S_g, which a later rekey needs (log 108) -/
  sg : List Byte
  rxSwitch : Nat
  txSwitch : Nat
deriving DecidableEq, Repr

/-- The reply of a mirrored retention entry (Table 16.5). -/
structure ReplyMsg where
  status : Nat
  rflags : Nat
  csn : Nat
  payload : List Byte
deriving DecidableEq, Repr

/-- An item that HANDOVER passes on (R651): a posted item, or with a due tick and insertion sequence a delay-list
entry. -/
structure HandItem where
  inst : Nat
  dom : Nat
  queue : Nat
  cls : Nat
  entry : Nat
  deadline : Nat
  payload : List Byte
  delay : Option (Nat × Nat)
deriving DecidableEq, Repr

/-- An entry of the divergence list (R646); selector 0xFFFF is image-wide. -/
structure DivEntry where
  dom : Nat
  image : Nat
  version : Nat
  entry : Nat
deriving DecidableEq, Repr

/-- What is run again of a sampled request (R642 to R644), with the CSN of its reply and the entry that a mismatch concerns. -/
structure Sampled where
  inst : Nat
  dom : Nat
  queue : Nat
  entry : Nat
  deadline : Nat
  payload : List Byte
  csn : Nat
  div : DivEntry
deriving DecidableEq, Repr

/-- A sampled request with its snapshot and its result digest (R642 to R644, Table 16.5). -/
structure Sample extends Sampled where
  sess : Nat
  reqId : Nat
  snap : Nat
  digest : List Byte
deriving DecidableEq, Repr

/-- Result of one re-run of an arbitration (Table 16.5, Table 16.8): the digest, whether it equals the sender's own first result,
and whether the sender's known-answer tests passed. -/
structure ArbMsg where
  sess : Nat
  reqId : Nat
  digest : List Byte
  same : Bool
  pass : Bool
deriving DecidableEq, Repr

/-- What a unit at PAIR_JOIN hears of its peer (R630). -/
structure PeerHeard where
  state : Nat
  solo : Bool
deriving DecidableEq, Repr

/-! ### Physical outcomes -/

/-- How a re-run is started (log 36): on which crew, and how the known-answer tests come out that go with it (Table 16.8 A1). -/
structure ReRun where
  crew : Nat
  tests : Bool
deriving DecidableEq, Repr

/-- The three kinds of crew engine (chapter 10). -/
inductive SymKind where
  | cipher | hash | check
deriving DecidableEq, Repr

/-- Samples of a noise source around a failure, oldest first: those that came before its present window of 1,024, and the
window so far (R524). -/
structure Samples where
  before : List Bool
  window : List Bool
deriving DecidableEq, Repr

/-- Samples that a loop has received: their bits in order, and how many the loop drove since its seed was drawn (R698, R699). -/
structure LoopSamples where
  start : Nat
  bits : List Bool
deriving DecidableEq, Repr

/-- Outcome of SELF_TEST (Table 19.3): the engines that fail, and whether rows 2-4 pass; row 5 is the sources' own state. -/
structure SelfTest where
  badCipher : List Nat := []
  badHash : List Nat := []
  badCheck : List Nat := []
  badBne : List Nat := []
  badLte : List Nat := []
  row2 : Bool := true
  row3 : Bool := true
  row4 : Bool := true
deriving DecidableEq, Repr

/-- A Cox firmware image as the boot ROM finds it (R742). -/
structure FwSlot where
  valid : Bool := false
  version : Nat := 0
  secVersion : Nat := 0
  raiseFloor : Bool := false
deriving DecidableEq, Repr

/-- A program image (Table 3.9). -/
structure Image where
  dom : Nat
  image : Nat
  version : Nat
  signer : Nat
  sigSet : Nat := 2
  /-- entry table words (R145) -/
  entries : List Nat
  /-- code words (R155) -/
  code : List Nat
  const : List Byte
  /-- `body_digest` -/
  digest : List Byte
deriving DecidableEq, Repr

/-- Who waits for a DRBG (R531). -/
inductive DrbgWaiter where
  | kgen (c : CoreId)
  | cipherJob (engine : Nat)
  | ksc (c : CoreId)
  | ceremony (m : Mgmt)
  /-- a ceremony whose key the KSC is to enter, completed by a message -/
  | cerKey (m : Mgmt) (number : Nat)
  /-- a derivation on a big-number or lattice engine, whose secret is to enter the key cache -/
  | bneKey (engine : Nat)
  | lteKey (engine : Nat)
deriving DecidableEq, Repr

/-- Who makes a register access (R753). -/
inductive Initiator where
  | core (c : CoreId)
  | cox
  | debug
deriving DecidableEq, Repr

/-- Who clears a counter register, and its address (R774). -/
structure ClearAt where
  ini : Initiator
  addr : Nat
deriving DecidableEq, Repr

end Sys2Proof
end

