-- ==== Sys2Proof/Syntax.lean ====
section
/-! DEFINITION. The commands of the block: one constructor per row of spec/opcode_table.json, in the table's order. -/

namespace Sys2Proof

/-- The 350 commands. -/
inductive Instr where
  -- Integer register operations (R168)
  | add (i : Issue) (d a b : GReg)
  | sub (i : Issue) (d a b : GReg)
  | and (i : Issue) (d a b : GReg)
  | or (i : Issue) (d a b : GReg)
  | xor (i : Issue) (d a b : GReg)
  | andn (i : Issue) (d a b : GReg)
  | orn (i : Issue) (d a b : GReg)
  | xnor (i : Issue) (d a b : GReg)
  | sll (i : Issue) (d a b : GReg)
  | srl (i : Issue) (d a b : GReg)
  | sra (i : Issue) (d a b : GReg)
  | rol (i : Issue) (d a b : GReg)
  | ror (i : Issue) (d a b : GReg)
  | slt (i : Issue) (d a b : GReg)
  | sltu (i : Issue) (d a b : GReg)
  | min (i : Issue) (d a b : GReg)
  | max (i : Issue) (d a b : GReg)
  | minu (i : Issue) (d a b : GReg)
  | maxu (i : Issue) (d a b : GReg)
  | clz (i : Issue) (d a : GReg)
  | ctz (i : Issue) (d a : GReg)
  | popc (i : Issue) (d a : GReg)
  | bswap (i : Issue) (d a : GReg)
  | bswapw (i : Issue) (d a : GReg)
  | bswaph (i : Issue) (d a : GReg)
  | sextb (i : Issue) (d a : GReg)
  | sexth (i : Issue) (d a : GReg)
  | sextw (i : Issue) (d a : GReg)
  | zextw (i : Issue) (d a : GReg)
  | mul (i : Issue) (d a b : GReg)
  | mulh (i : Issue) (d a b : GReg)
  | mulhu (i : Issue) (d a b : GReg)
  | mulhsu (i : Issue) (d a b : GReg)
  | div (i : Issue) (d a b : GReg)
  | divu (i : Issue) (d a b : GReg)
  | rem (i : Issue) (d a b : GReg)
  | remu (i : Issue) (d a b : GReg)
  -- Immediate operations (R172, R173)
  | addi (i : Issue) (d a : GReg) (p : Bool) (v : BitVec 32)
  | andi (i : Issue) (d a : GReg) (p : Bool) (v : BitVec 32)
  | ori (i : Issue) (d a : GReg) (p : Bool) (v : BitVec 32)
  | xori (i : Issue) (d a : GReg) (p : Bool) (v : BitVec 32)
  | slti (i : Issue) (d a : GReg) (p : Bool) (v : BitVec 32)
  | sltiu (i : Issue) (d a : GReg) (p : Bool) (v : BitVec 32)
  | lih (i : Issue) (d a : GReg) (p : Bool) (v : BitVec 32)
  | slli (i : Issue) (d a : GReg) (n : BitVec 6)
  | srli (i : Issue) (d a : GReg) (n : BitVec 6)
  | srai (i : Issue) (d a : GReg) (n : BitVec 6)
  | rori (i : Issue) (d a : GReg) (n : BitVec 6)
  -- Memory (R175-R180); m is what the read meets
  | ldb (i : Issue) (sp : Space) (d a : GReg) (p : Bool) (off : BitVec 32) (m : MemEvent)
  | ldh (i : Issue) (sp : Space) (d a : GReg) (p : Bool) (off : BitVec 32) (m : MemEvent)
  | ldw (i : Issue) (sp : Space) (d a : GReg) (p : Bool) (off : BitVec 32) (m : MemEvent)
  | ldd (i : Issue) (sp : Space) (d a : GReg) (p : Bool) (off : BitVec 32) (m : MemEvent)
  | stb (i : Issue) (sp : Space) (d a : GReg) (p : Bool) (off : BitVec 32)
  | sth (i : Issue) (sp : Space) (d a : GReg) (p : Bool) (off : BitVec 32)
  | stw (i : Issue) (sp : Space) (d a : GReg) (p : Bool) (off : BitVec 32)
  | std (i : Issue) (sp : Space) (d a : GReg) (p : Bool) (off : BitVec 32)
  -- Control flow (R181-R196)
  | beq (i : Issue) (a b : GReg) (p : Bool) (off : BitVec 32)
  | bne (i : Issue) (a b : GReg) (p : Bool) (off : BitVec 32)
  | blt (i : Issue) (a b : GReg) (p : Bool) (off : BitVec 32)
  | bge (i : Issue) (a b : GReg) (p : Bool) (off : BitVec 32)
  | bltu (i : Issue) (a b : GReg) (p : Bool) (off : BitVec 32)
  | bgeu (i : Issue) (a b : GReg) (p : Bool) (off : BitVec 32)
  | j (i : Issue) (off : BitVec 26)
  | call (i : Issue) (off : BitVec 26)
  | jr (i : Issue) (a : GReg)
  | callr (i : Issue) (a : GReg)
  | ret (i : Issue)
  | nop (i : Issue)
  | loop (i : Issue) (a : GReg) (e : BitVec 16)
  | stat (i : Issue) (d : GReg) (idx : BitVec 16)
  | csrr (i : Issue) (d a : GReg)
  | csrw (i : Issue) (a b : GReg)
  | strokeBudgetExhausted (c : CoreId)
  -- Key instructions (R226-R235)
  | kload (i : Issue) (kd : KReg) (gs g : GReg)
  | kgen (i : Issue) (kd : KReg) (gs g : GReg)
  | kderive (i : Issue) (kd ka : KReg) (gs g : GReg)
  | kwrap (i : Issue) (kd ka : KReg) (gs g : GReg)
  | kunwrap (i : Issue) (kd ka : KReg) (gs g : GReg)
  | kattrRead (i : Issue) (ka : KReg) (gs g : GReg)
  | kattrRestrict (i : Issue) (ka : KReg) (gs g : GReg)
  | kattrDelete (i : Issue) (ka : KReg) (gs g : GReg)
  | kdrop (i : Issue) (ka : KReg)
  | keyInstrComplete (c : CoreId)
  | keyCacheMissFill (c : CoreId) (m : RecordRead)
  -- Engine, pool, ending, queueing and journal instructions
  | ciph (i : Issue) (ka : KReg) (gs g : GReg)
  | macv (i : Issue) (ka : KReg) (gs g : GReg)
  | kmac (i : Issue) (ka : KReg) (gs g : GReg)
  | hash (i : Issue) (d a : GReg)
  | pkcallKeyed (i : Issue) (ka : KReg) (gs g : GReg)
  | pkcallPublic (i : Issue) (gs g : GReg)
  | ltcallKeyed (i : Issue) (ka : KReg) (gs g : GReg)
  | ltcallPublic (i : Issue) (gs g : GReg)
  | reply (i : Issue) (a : GReg)
  | done (i : Issue)
  | cont (i : Issue) (a b : GReg)
  | post (i : Issue) (d a : GReg)
  | delay (i : Issue) (d a b : GReg)
  | jbegin (i : Issue) (d : GReg)
  | jput (i : Issue) (d a b : GReg)
  | jcommit (i : Issue) (d : GReg)
  | jabort (i : Issue)
  | wait (i : Issue) (d a : GReg)
  | cvset (i : Issue) (d a b : GReg)
  | cvupd (i : Issue) (d a b : GReg)
  | cvget (i : Issue) (d a : GReg)
  | cvput (i : Issue) (d a b : GReg)
  | rng (i : Issue) (d a b : GReg)
  | rngWaitTimeout (c : CoreId)
  | time (i : Issue) (d : GReg)
  | serviceResultReady (c : CoreId) (d : GReg)
  | issueCheckFailComplete (ticket : Nat)
  -- Symmetric engine events (chapter 10)
  | cipherJobStart (k : SymKind) (e : Nat)
  | cipherJobComplete (e : Nat)
  | engineJobYield (k : SymKind) (e : Nat)
  | engineJobResume (k : SymKind) (e : Nat)
  | hashJobComplete (e : Nat)
  | cvupdJobComplete (u : Nat)
  | engineFaultDetected (k : SymKind) (e : Nat)
  | engineRecoveryDone (k : SymKind) (e : Nat) (pass : Bool)
  | cphKatRun (k : SymKind) (e : Nat)
  -- Pools (chapters 11 and 12)
  | poolScreenFailComplete (ticket : Nat)
  | bneJobLoad
  | bneJobStart (e : Nat)
  | bneRngTimeout (e : Nat)
  | bneJobComplete (e : Nat) (slotsOk invariantOk : Bool)
  | bneFaultDetected (e : Nat)
  | bneRecoveryDone (e : Nat) (pass : Bool)
  | bneKatRun (e : Nat)
  | slotLengthChange (e : Nat)
  | lteJobLoad
  | lteJobStart (e : Nat)
  | lteRngTimeout (e : Nat)
  | lteJobComplete (e : Nat) (iterations : Nat) (invariantOk : Bool)
  | signIterationLimit (e : Nat)
  | lteFaultDetected (e : Nat)
  | lteRecoveryDone (e : Nat) (pass : Bool)
  | lteKatRun (e : Nat)
  | cacheFlush (e : Nat)
  | expandedKeyAgeOut (e : Nat)
  -- Dispatcher (chapters 01, 03 and 06)
  | requestRecord (sess : Nat) (hdr payload : List Byte) (stamp : Nat)
  | dispatch (crew : Nat)
  | delayListRelease
  | coarseBucketMove
  | continuationMatch (ticket : Nat)
  | classCreditReset
  | tokenRefill (i : Nat)
  | traceClear
  -- Journal and key store (chapter 08)
  | commitDurable
  | commitVisible
  | recordAreaApply
  | remaskVisit (entry : Nat)
  | remaskLate
  | keyMaterialOverwrite (n : KeyName)
  | nandBlockErase (block : Nat)
  | nandBlockRetire
  | domainErasureComplete (d : Nat)
  -- Configuration records (chapters 07, 09, 20)
  | domainCreate (d : Nat)
  | domainDelete (d : Nat)
  | instanceCreate (i d : Nat) (sh : Share)
  | instanceDelete (i : Nat)
  | administrativeState (i : Nat) (enable : Bool)
  | shareChange (i : Nat) (sh : Share)
  | queueConfigure (q : Nat) (b : QBlock)
  | queueRemove (q : Nat)
  | officerSet (scope : Nat) (l : List Officer)
  | policy (scope : Nat) (l : List PolicyEntry)
  | domainSettings (scope : Nat) (x : Settings)
  | usagePolicyEntry (scope : Nat) (u : Usage)
  | imageLoad (d image version : Nat) (digest : List Byte)
  | imageUnload (d image version : Nat)
  | bind (d q image version : Nat)
  | unbind (d q : Nat)
  | raiseVersionFloor (d image floor : Nat)
  | profileRecord (p : ProfileRec)
  -- Instance control (chapter 07)
  | insCmdReset (i : Nat)
  | insCmdClear (i : Nat)
  | handlingQueueServe (i : Nat)
  | faultWindowBoundary (i : Nat)
  | quiesceLimitExpiry (i : Nat)
  | instanceQuiesced (i : Nat)
  | drainComplete (i : Nat)
  -- Meridian (chapter 02)
  | meridianTick (slew : Int)
  | ptpSync (h : PtpHdr) (logInterval : Int) (twoStep : Bool) (seq origin lead : Nat) (filtered : Int)
  | ptpAnnounce (h : PtpHdr) (a : Announce)
  | ptpFollowUp (h : PtpHdr) (seq origin : Nat) (filtered : Int)
  | ptpDelayResp (h : PtpHdr) (received : Nat)
  | ptpOtherMessage (h : PtpHdr)
  | announceReceiptTimeout
  | sourceQualificationLoss
  | mppsEdge (offsetNs : Int)
  | forwardStep
  | rtcSet
  -- Random numbers (chapter 13)
  | healthTestFailure (src : Nat) (samples : Samples)
  | startupTestComplete (src : Nat) (early late : List Bool)
  | seedProduced
  | drbgInstantiate
  | drbgReseed (n : Nat)
  | rngDataLoRead (ini : Initiator)
  | dataRegisterRefill
  -- Sessions (chapters 14 and 15)
  | hello (f : Frame) (shares : List Byte)
  | confirm (f : Frame) (sig : List Byte)
  | dataFrame (f : Frame)
  | ackFrame (f : Frame)
  | rekeyAck (f : Frame)
  | close (f : Frame)
  | resync (f : Frame)
  | beaconQ (f : Frame)
  | arpRequest (at_ : LinkAt) (addr : Nat)
  | neighbourSolicitation (at_ : LinkAt) (addr : Nat)
  | icmpEcho (at_ : LinkAt) (addr : Nat) (v6 : Bool)
  | rekeyTrigger (sess : Nat)
  | generationLimit (sess : Nat)
  | oldKeyErase (sess : Nat)
  | rtoExpiry (sess seq : Nat)
  | ackDelayExpiry (sess : Nat)
  | keepalive (sess : Nat)
  | idleExpiry (sess : Nat)
  | halfOpenExpiry (sess : Nat)
  | closeTimeout (sess : Nat)
  | quarantineExpiry (sess : Nat)
  | retentionRemoval (sess reqId : Nat)
  | cookieEpochChange
  | addressAnnounce (port : Nat)
  -- Management messages (Table 20.12): the payload is the parts in order (log 116)
  | reg (m : Mgmt) (payload : List Byte)
  | ceremonyOpen (m : Mgmt) (cls scope len body : List Byte)
  | approval (m : Mgmt) (payload : List Byte) (peer : Option PairOffer)
  | ceremonyInputPart (m : Mgmt) (number rsvd final off data : List Byte)
  | ceremonyOutputPart (m : Mgmt) (number off len : List Byte)
  | ceremonyStatus (m : Mgmt) (scope cls : List Byte)
  | commitRecords (m : Mgmt) (payload : List Byte)
  | imageUploadPart (m : Mgmt) (dom image version final off data : List Byte)
  | firmwareUploadPart (m : Mgmt) (final off data : List Byte)
  | challengeIssue (m : Mgmt) (purpose target : List Byte)
  | thapraResponse (m : Mgmt) (pk sig : List Byte)
  | ownerResponse (m : Mgmt) (pk sig : List Byte)
  | restart (m : MgmtMsg)
  | rerunSelfTest (m : MgmtMsg) (r : SelfTest)
  | dramPatternTest (m : MgmtMsg) (pass : Bool)
  | nandReadScan (m : MgmtMsg) (pass : Bool)
  | closeSession (m : Mgmt) (payload : List Byte)
  | ownerKeyDigest (m : Mgmt) (payload : List Byte)
  | ceremonyLapse (number : Nat)
  -- Pair (chapter 16)
  | heartbeat (p : Plp) (x : PeerState)
  | commit (p : Plp) (c : Commit) (digest : List Byte)
  | commitAck (p : Plp) (csn : Nat)
  | anchor (p : Plp) (a : AnchorMsg)
  | retain (p : Plp) (r : Requester) (reply : Option ReplyMsg) (remove : Bool)
  | quarantine (p : Plp) (sess start : Nat)
  | compare (p : Plp) (sess reqId snap : Nat) (digest : List Byte) (m : Sampled)
  | sampleRun (of : Nat × Nat) (on : ReRun)
  | compareResult (p : Plp) (sess reqId : Nat) (matched : Bool)
  | arbitrate (p : Plp) (sess reqId : Nat) (digest : List Byte) (same coresPass enginesPass : Bool)
  | diverge (p : Plp) (l : List DivEntry) (all : Bool)
  | join (p : Plp) (top : Nat × List Byte) (below : List (Nat × List Byte))
  | catchup (p : Plp) (cs : List Commit) (full : Option Directory)
  | handback (p : Plp) (second : Nat)
  | handover (p : Plp) (items : List HandItem)
  | yield_ (p : Plp)
  | heartbeatSend
  | plpRetransmit
  | linkLoss
  | pairAliveInDeassert
  | linkWaitLog
  | fenceWatchdogExpiry
  | joinWaitExpiry (peer : Option PeerHeard)
  | holdoffExpiry
  | handbackSecond
  | yieldReq
  -- Memory protection (chapter 17)
  | regionSweepComplete
  | masterRekeyPeriod
  | masterRekey
  | masterRekeyComplete
  | regionRebuildComplete
  | fullRebuildComplete (ok : Bool)
  | apuCommit
  | apuCommitComplete
  | debugAccess (addr len : Nat) (write : Bool) (data : List Byte)
  -- Alarms (chapter 18)
  | etmpLoopFail (n : Nat) (samples : LoopSamples)
  | caseOpen (n : Nat)
  | mesh (loops : Nat)
  | battLow (mv : Nat)
  | battCrit (mv : Nat)
  | binTemp (celsius : Int)
  | supply (detail : Nat)
  | clock (monitor : Nat)
  | dieHot (celsius : Nat)
  | dieCold (celsius : Int)
  | light (mask : Nat)
  | shield (segment : Nat)
  | throttleEnd
  | evidenceProgram (ok : Bool)
  | backupCellConnect (mv : Nat)
  -- Power and start stages (chapters 19 and 21)
  | pwrGoodAssert
  | pwrGoodDeassert
  | vmainBelowThreshold
  | resetNAssert
  | resetNRelease
  | powerDownComplete
  | power (ok : Bool)
  | binnacleCheck (progOk : Bool)
  | fuseLoad (stuckAt : Option Nat)
  | coxBoot
  | selfTest (r : SelfTest)
  | pufRoot (low mid high : List Byte)
  | dramTrainTest (trained tested : Bool)
  | keystoreOpen (lastBad damaged : Bool) (badImages : List (Nat × Nat × Nat))
  | pairJoin (peer : Option PeerHeard)
  | lifecycleTransition (stepOk : Bool)
  | testToken (token : List Byte)
  | factoryJtagCommand (code : Nat) (tokens : List (List Byte))
  | dbgRelock
  | lcfSrcDisable (ini : Initiator) (mask : BitVec 32)
  -- Log, counters, profiles, Drill (chapter 20)
  | logRecordDrain
  | logFreeze
  | logThaw
  | freezeExpiry
  | optimeSave
  | trbClear
  | counterClear (reg : ClearAt)
  | profileSwitch
  | domainPowerDown (d : Nat)
  | powerCapExceeded (deciwatts : Nat)
  | powerCapRelease (deciwatts : Nat)
  | drillArm (inj : Nat)
  | reorderHoldTimeout (inj : Nat)
  | permitExpiry
  | drillLogMs (inj : Nat)
  -- SMBus and discrete (chapter 21)
  | smbIdentity (code : Option Byte)
  | smbPower (code : Option Byte) (mv ma : Nat)
  | smbTemperature (code : Option Byte) (die face : Int)
  | smbCell (code : Option Byte) (external : Bool)
  | smbUsage (code : Option Byte)
  | smbFru (code : Option Byte) (off : Nat)
  | alertResponseRead
  | smbusTimeout
  -- Register conventions (R760-R763)
  | loReadLatch (ini : Initiator) (addr : Nat)
  | hiWriteStage (ini : Initiator) (addr : Nat) (v : BitVec 32)
  | loWriteCommit (ini : Initiator) (addr : Nat) (v : BitVec 32)
  | registerWrite (ini : Initiator) (addr : Nat) (v : BitVec 32)
  -- The table's last rows
  | reservedEncoding (i : Issue)
  | drbgWaitTimeout (w : DrbgWaiter)
  | pairAliveInAssert
  | hostPortLinkChange (port : Nat) (up : Bool)
  | vmainInRange
  | coldPlateOutOfRange (celsius : Int)
  | alarmConditionClear (src : Nat)
  | domainPowerUp (d : Nat)
  | soloDurable
  | discardedFrame (f : Frame)
  | smbusWrite (cmd : Nat)
deriving DecidableEq, Repr

end Sys2Proof
end

