-- ==== Sys2Proof/WellFormed.lean ====
section
/-! DEFINITION. Which decoded Zynfer operations have an encoding (chapter 04), and which commands name only units that
a module of the family can have. -/

namespace Sys2Proof

/-- Unary register operations: their b field is reserved (R168). -/
def RegOp.unary : RegOp → Bool
  | .clz | .ctz | .popc | .bswap | .bswapw | .bswaph | .sextb | .sexth | .sextw | .zextw => true
  | _ => false

/-- Which of kd, ka, g and gs a format K operation uses (Table 4.8). -/
def KOp.uses : KOp → Bool × Bool × Bool × Bool
  | .kload | .kgen => (true, false, true, true)
  | .kderive | .kwrap | .kunwrap => (true, true, true, true)
  | .kattr | .ciph | .macv | .kmac | .pkKeyed | .ltKeyed => (false, true, true, true)
  | .kdrop => (false, true, false, false)
  | .pkPublic | .ltPublic => (false, false, true, true)

/-- Which of d, a and b a format S instruction uses (Table 4.9). -/
def SOp.uses : SOp → Bool × Bool × Bool
  | .reply => (false, true, false)
  | .done | .jabort => (false, false, false)
  | .cont | .csrw => (false, true, true)
  | .post | .wait | .hash | .cvget | .csrr => (true, true, false)
  | .delay | .jput | .cvset | .cvupd | .cvput | .rng => (true, true, true)
  | .jbegin | .jcommit | .time => (true, false, false)

/-- A field that the instruction does not use is zero (R157). -/
def unusedZero (used : Bool) (v : Nat) : Bool := used || v == 0

/-- The immediate fits the word or words it is written in (R159). -/
def immFits (pfx : Bool) (v : BitVec 32) : Bool := pfx || decide (v.toNat < 65536)

/-- The operation has an encoding: it is not a reserved one (R207, Table 4.10). -/
def Op.wf : Op → Bool
  | .reg f d a b => (!f.unary || b == 0) && !(f == .add && d == 0 && a == 0 && b == 0)
  | .mul .. | .nop | .ret | .jr _ | .callr _ | .sh .. | .stat .. | .jmp .. => true
  | .imm _ _ _ pfx v => immFits pfx v
  | .loop _ e => decide (2 ≤ e.toNat)
  | .mem _ _ _ _ _ pfx off => immFits pfx off
  | .br _ _ _ pfx off => immFits pfx off
  | .key f kd ka g gs =>
    unusedZero f.uses.1 kd.val && unusedZero f.uses.2.1 ka.val && unusedZero f.uses.2.2.1 g.val &&
      unusedZero f.uses.2.2.2 gs.val
  | .svc f d a b =>
    unusedZero f.uses.1 d.val && unusedZero f.uses.2.1 a.val && unusedZero f.uses.2.2 b.val &&
      !(f == .time && (d == 0 || d == 31))

/-- The Zynfer operation that a command of the core families issues, and on which core. -/
def Instr.op? : Instr → Option (Issue × Op)
  | .add i d a b => some (i, .reg .add d a b)
  | .sub i d a b => some (i, .reg .sub d a b)
  | .and i d a b => some (i, .reg .and d a b)
  | .or i d a b => some (i, .reg .or d a b)
  | .xor i d a b => some (i, .reg .xor d a b)
  | .andn i d a b => some (i, .reg .andn d a b)
  | .orn i d a b => some (i, .reg .orn d a b)
  | .xnor i d a b => some (i, .reg .xnor d a b)
  | .sll i d a b => some (i, .reg .sll d a b)
  | .srl i d a b => some (i, .reg .srl d a b)
  | .sra i d a b => some (i, .reg .sra d a b)
  | .rol i d a b => some (i, .reg .rol d a b)
  | .ror i d a b => some (i, .reg .ror d a b)
  | .slt i d a b => some (i, .reg .slt d a b)
  | .sltu i d a b => some (i, .reg .sltu d a b)
  | .min i d a b => some (i, .reg .min d a b)
  | .max i d a b => some (i, .reg .max d a b)
  | .minu i d a b => some (i, .reg .minu d a b)
  | .maxu i d a b => some (i, .reg .maxu d a b)
  | .clz i d a => some (i, .reg .clz d a 0)
  | .ctz i d a => some (i, .reg .ctz d a 0)
  | .popc i d a => some (i, .reg .popc d a 0)
  | .bswap i d a => some (i, .reg .bswap d a 0)
  | .bswapw i d a => some (i, .reg .bswapw d a 0)
  | .bswaph i d a => some (i, .reg .bswaph d a 0)
  | .sextb i d a => some (i, .reg .sextb d a 0)
  | .sexth i d a => some (i, .reg .sexth d a 0)
  | .sextw i d a => some (i, .reg .sextw d a 0)
  | .zextw i d a => some (i, .reg .zextw d a 0)
  | .mul i d a b => some (i, .mul .mul d a b)
  | .mulh i d a b => some (i, .mul .mulh d a b)
  | .mulhu i d a b => some (i, .mul .mulhu d a b)
  | .mulhsu i d a b => some (i, .mul .mulhsu d a b)
  | .div i d a b => some (i, .mul .div d a b)
  | .divu i d a b => some (i, .mul .divu d a b)
  | .rem i d a b => some (i, .mul .rem d a b)
  | .remu i d a b => some (i, .mul .remu d a b)
  | .addi i d a p v => some (i, .imm .addi d a p v)
  | .andi i d a p v => some (i, .imm .andi d a p v)
  | .ori i d a p v => some (i, .imm .ori d a p v)
  | .xori i d a p v => some (i, .imm .xori d a p v)
  | .slti i d a p v => some (i, .imm .slti d a p v)
  | .sltiu i d a p v => some (i, .imm .sltiu d a p v)
  | .lih i d a p v => some (i, .imm .lih d a p v)
  | .slli i d a n => some (i, .sh .slli d a n)
  | .srli i d a n => some (i, .sh .srli d a n)
  | .srai i d a n => some (i, .sh .srai d a n)
  | .rori i d a n => some (i, .sh .rori d a n)
  | .ldb i sp d a p off _ => some (i, .mem sp false .b d a p off)
  | .ldh i sp d a p off _ => some (i, .mem sp false .h d a p off)
  | .ldw i sp d a p off _ => some (i, .mem sp false .w d a p off)
  | .ldd i sp d a p off _ => some (i, .mem sp false .d d a p off)
  | .stb i sp d a p off => some (i, .mem sp true .b d a p off)
  | .sth i sp d a p off => some (i, .mem sp true .h d a p off)
  | .stw i sp d a p off => some (i, .mem sp true .w d a p off)
  | .std i sp d a p off => some (i, .mem sp true .d d a p off)
  | .beq i a b p off => some (i, .br .eq a b p off)
  | .bne i a b p off => some (i, .br .ne a b p off)
  | .blt i a b p off => some (i, .br .lt a b p off)
  | .bge i a b p off => some (i, .br .ge a b p off)
  | .bltu i a b p off => some (i, .br .ltu a b p off)
  | .bgeu i a b p off => some (i, .br .geu a b p off)
  | .j i off => some (i, .jmp false off)
  | .call i off => some (i, .jmp true off)
  | .jr i a => some (i, .jr a)
  | .callr i a => some (i, .callr a)
  | .ret i => some (i, .ret)
  | .nop i => some (i, .nop)
  | .loop i a e => some (i, .loop a e)
  | .stat i d idx => some (i, .stat d idx)
  | .csrr i d a => some (i, .svc .csrr d a 0)
  | .csrw i a b => some (i, .svc .csrw 0 a b)
  | .kload i kd gs g => some (i, .key .kload kd 0 g gs)
  | .kgen i kd gs g => some (i, .key .kgen kd 0 g gs)
  | .kderive i kd ka gs g => some (i, .key .kderive kd ka g gs)
  | .kwrap i kd ka gs g => some (i, .key .kwrap kd ka g gs)
  | .kunwrap i kd ka gs g => some (i, .key .kunwrap kd ka g gs)
  | .kattrRead i ka gs g => some (i, .key .kattr 0 ka g gs)
  | .kattrRestrict i ka gs g => some (i, .key .kattr 0 ka g gs)
  | .kattrDelete i ka gs g => some (i, .key .kattr 0 ka g gs)
  | .ciph i ka gs g => some (i, .key .ciph 0 ka g gs)
  | .macv i ka gs g => some (i, .key .macv 0 ka g gs)
  | .kmac i ka gs g => some (i, .key .kmac 0 ka g gs)
  | .pkcallKeyed i ka gs g => some (i, .key .pkKeyed 0 ka g gs)
  | .ltcallKeyed i ka gs g => some (i, .key .ltKeyed 0 ka g gs)
  | .kdrop i ka => some (i, .key .kdrop 0 ka 0 0)
  | .pkcallPublic i gs g => some (i, .key .pkPublic 0 0 g gs)
  | .ltcallPublic i gs g => some (i, .key .ltPublic 0 0 g gs)
  | .hash i d a => some (i, .svc .hash d a 0)
  | .reply i a => some (i, .svc .reply 0 a 0)
  | .done i => some (i, .svc .done 0 0 0)
  | .cont i a b => some (i, .svc .cont 0 a b)
  | .post i d a => some (i, .svc .post d a 0)
  | .delay i d a b => some (i, .svc .delay d a b)
  | .jbegin i d => some (i, .svc .jbegin d 0 0)
  | .jput i d a b => some (i, .svc .jput d a b)
  | .jcommit i d => some (i, .svc .jcommit d 0 0)
  | .jabort i => some (i, .svc .jabort 0 0 0)
  | .wait i d a => some (i, .svc .wait d a 0)
  | .cvset i d a b => some (i, .svc .cvset d a b)
  | .cvupd i d a b => some (i, .svc .cvupd d a b)
  | .cvget i d a => some (i, .svc .cvget d a 0)
  | .cvput i d a b => some (i, .svc .cvput d a b)
  | .rng i d a b => some (i, .svc .rng d a b)
  | .time i d => some (i, .svc .time d 0 0)
  | _ => none

/-- Every field of a frame header has the width of Table 14.2 (R551). -/
def FrameHdr.wf (h : FrameHdr) : Bool :=
  decide (h.ver < 16 ∧ h.typ < 16 ∧ h.flags < 2 ^ 8 ∧ h.rsvd < 2 ^ 16 ∧ h.sess < 2 ^ 32 ∧ h.seq < 2 ^ 64 ∧ h.cumAck < 2 ^ 64 ∧
    h.sack < 2 ^ 32 ∧ h.rwnd < 2 ^ 16 ∧ h.plen < 2 ^ 16 ∧ h.stamp < 2 ^ 64)

/-- A frame on one of the five ports, whose header can be written. -/
def Frame.wf (f : Frame) : Bool := decide (f.port < 5) && f.hdr.wf

/-- The command names only units, ports and instances that the family can have (Table 0.1). -/
def Instr.unitsOk : Instr → Bool
  | .cipherJobStart k e | .engineJobYield k e | .engineJobResume k e | .engineFaultDetected k e
  | .engineRecoveryDone k e _ | .cphKatRun k e => decide (e < if k = .check then 9 else 16)
  | .cipherJobComplete e | .hashJobComplete e => decide (e < 16)
  | .cvupdJobComplete u => decide (u < 9)
  | .bneJobStart e | .bneRngTimeout e | .bneJobComplete e _ _ | .bneFaultDetected e | .bneRecoveryDone e _
  | .bneKatRun e | .slotLengthChange e => decide (e < 16)
  | .lteJobStart e | .lteRngTimeout e | .lteJobComplete e _ _ | .signIterationLimit e | .lteFaultDetected e
  | .lteRecoveryDone e _ | .lteKatRun e | .cacheFlush e | .expandedKeyAgeOut e => decide (e < 8)
  | .dispatch c => decide (c < 8)
  | .healthTestFailure s _ | .startupTestComplete s _ _ => decide (s < 4)
  | .drbgReseed n => decide (n < 9)
  | .hello f _ | .confirm f _ | .dataFrame f | .ackFrame f | .rekeyAck f | .close f | .resync f | .beaconQ f
  | .discardedFrame f => f.wf
  | .arpRequest a _ | .neighbourSolicitation a _ | .icmpEcho a _ _ => decide (a.port < 5)
  | .hostPortLinkChange p _ | .addressAnnounce p => decide (p < 5)
  | .drillArm n | .reorderHoldTimeout n => decide (n < 5)
  | _ => true

/-- Well-formed command. -/
def Instr.wf (i : Instr) : Bool :=
  match i.op? with
  | some (_, op) => op.wf
  | none => i.unitsOk

end Sys2Proof
end

