-- ==== Sys2Proof/Decode.lean ====
section
/-! DEFINITION. The Zynfer decoder (chapter 04) and, after it, the encoder. Code words are natural numbers below 2^32;
a field of width n at bit p of word w is `w / 2^p % 2^n` (R156). Also `decodeTableWord`: no row of the opcode table gives bits. -/

namespace Sys2Proof

/-- A general-register field. -/
def gfield (w p : Nat) : GReg := ⟨w / 2 ^ p % 32, Nat.mod_lt _ (by decide)⟩

/-- A handle-register field. -/
def kfield (w p : Nat) : KReg := ⟨w / 2 ^ p % 16, Nat.mod_lt _ (by decide)⟩

/-! ### Function codes -/

/-- Func code of a register operation (Table 4.4). -/
def RegOp.code : RegOp → Nat
  | .add => 0 | .sub => 1 | .and => 2 | .or => 3 | .xor => 4 | .andn => 5 | .orn => 6 | .xnor => 7 | .sll => 8
  | .srl => 9 | .sra => 10 | .rol => 11 | .ror => 12 | .slt => 13 | .sltu => 14 | .min => 15 | .max => 16
  | .minu => 17 | .maxu => 18 | .clz => 19 | .ctz => 20 | .popc => 21 | .bswap => 22 | .bswapw => 23
  | .bswaph => 24 | .sextb => 25 | .sexth => 26 | .sextw => 27 | .zextw => 28

/-- Register operation of a func code (Table 4.4). -/
def RegOp.ofCode : Nat → Option RegOp
  | 0 => some .add | 1 => some .sub | 2 => some .and | 3 => some .or | 4 => some .xor | 5 => some .andn
  | 6 => some .orn | 7 => some .xnor | 8 => some .sll | 9 => some .srl | 10 => some .sra | 11 => some .rol
  | 12 => some .ror | 13 => some .slt | 14 => some .sltu | 15 => some .min | 16 => some .max | 17 => some .minu
  | 18 => some .maxu | 19 => some .clz | 20 => some .ctz | 21 => some .popc | 22 => some .bswap
  | 23 => some .bswapw | 24 => some .bswaph | 25 => some .sextb | 26 => some .sexth | 27 => some .sextw
  | 28 => some .zextw
  | _ => none

/-- Func code of a multiply or divide (Table 4.5). -/
def MulOp.code : MulOp → Nat
  | .mul => 0 | .mulh => 1 | .mulhu => 2 | .mulhsu => 3 | .div => 4 | .divu => 5 | .rem => 6 | .remu => 7

/-- Multiply or divide of a func code (Table 4.5). -/
def MulOp.ofCode : Nat → Option MulOp
  | 0 => some .mul | 1 => some .mulh | 2 => some .mulhu | 3 => some .mulhsu
  | 4 => some .div | 5 => some .divu | 6 => some .rem | 7 => some .remu | _ => none

/-- Opcode of an immediate operation (Table 4.6). -/
def ImmOp.code : ImmOp → Nat
  | .addi => 5 | .andi => 6 | .ori => 7 | .xori => 8 | .slti => 9 | .sltiu => 10 | .lih => 11

/-- Selector of a shift by immediate (R173). -/
def ShOp.code : ShOp → Nat
  | .slli => 0 | .srli => 1 | .srai => 2 | .rori => 3

/-- Shift of a selector (R173). -/
def ShOp.ofCode : Nat → Option ShOp
  | 0 => some .slli | 1 => some .srli | 2 => some .srai | 3 => some .rori | _ => none

/-- Space number (R175). -/
def Space.code : Space → Nat
  | .ldm => 0 | .req => 1 | .rpl => 2 | .con => 3 | .scr => 4

/-- Width number (R175). -/
def Width.code : Width → Nat
  | .b => 0 | .h => 1 | .w => 2 | .d => 3

/-- Opcode of a branch (Table 4.7). -/
def BrOp.code : BrOp → Nat
  | .eq => 0x39 | .ne => 0x3A | .lt => 0x3B | .ge => 0x3C | .ltu => 0x3D | .geu => 0x3E

/-- op code of a format K operation (Table 4.8). -/
def KOp.code : KOp → Nat
  | .kload => 0x01 | .kgen => 0x02 | .kderive => 0x03 | .kwrap => 0x04 | .kunwrap => 0x05 | .kattr => 0x06
  | .kdrop => 0x07 | .ciph => 0x10 | .macv => 0x11 | .kmac => 0x12 | .pkKeyed => 0x20 | .pkPublic => 0x21
  | .ltKeyed => 0x22 | .ltPublic => 0x23

/-- Format K operation of an op code (Table 4.8). -/
def KOp.ofCode : Nat → Option KOp
  | 0x01 => some .kload | 0x02 => some .kgen | 0x03 => some .kderive | 0x04 => some .kwrap | 0x05 => some .kunwrap
  | 0x06 => some .kattr | 0x07 => some .kdrop | 0x10 => some .ciph | 0x11 => some .macv | 0x12 => some .kmac
  | 0x20 => some .pkKeyed | 0x21 => some .pkPublic | 0x22 => some .ltKeyed | 0x23 => some .ltPublic | _ => none

/-- Unit and func of a format S instruction (Table 4.9). -/
def SOp.code : SOp → Nat × Nat
  | .reply => (0, 1) | .done => (0, 2) | .cont => (0, 3) | .post => (0, 4) | .delay => (0, 5)
  | .jbegin => (1, 1) | .jput => (1, 2) | .jcommit => (1, 3) | .jabort => (1, 4)
  | .wait => (2, 1) | .hash => (2, 2)
  | .cvset => (3, 1) | .cvupd => (3, 2) | .cvget => (3, 3) | .cvput => (3, 4)
  | .rng => (4, 1) | .time => (5, 1) | .csrr => (6, 1) | .csrw => (6, 2)

/-- Format S instruction of a unit and func (Table 4.9). -/
def SOp.ofCode : Nat → Nat → Option SOp
  | 0, 1 => some .reply | 0, 2 => some .done | 0, 3 => some .cont | 0, 4 => some .post | 0, 5 => some .delay
  | 1, 1 => some .jbegin | 1, 2 => some .jput | 1, 3 => some .jcommit | 1, 4 => some .jabort
  | 2, 1 => some .wait | 2, 2 => some .hash
  | 3, 1 => some .cvset | 3, 2 => some .cvupd | 3, 3 => some .cvget | 3, 4 => some .cvput
  | 4, 1 => some .rng | 5, 1 => some .time | 6, 1 => some .csrr | 6, 2 => some .csrw | _, _ => none

/-! ### The decoder -/

/-- Keep an operation only where its unused fields are zero and it is no reserved encoding (R157, R207). -/
def keepWf (op : Op) : Option Op := if op.wf then some op else none

/-- Format A, opcode 0x00 (Table 4.4). -/
def decodeReg (w : Nat) : Option Op :=
  (RegOp.ofCode (w % 2048)).bind fun f => keepWf (.reg f (gfield w 21) (gfield w 16) (gfield w 11))

/-- Format A, opcode 0x01 (Table 4.5). -/
def decodeMul (w : Nat) : Option Op :=
  (MulOp.ofCode (w % 2048)).map fun f => .mul f (gfield w 21) (gfield w 16) (gfield w 11)

/-- Format A, opcode 0x02 (Table 4.7). -/
def decodeFlow (w : Nat) : Option Op :=
  if w / 2048 % 32 ≠ 0 ∨ w / 2097152 % 32 ≠ 0 then none
  else match w % 2048 with
    | 0 => if w / 65536 % 32 = 0 then some .nop else none
    | 1 => if w / 65536 % 32 = 0 then some .ret else none
    | 2 => some (.jr (gfield w 16))
    | 3 => some (.callr (gfield w 16))
    | _ => none

/-- Format K, opcode 0x03 (Table 4.8). -/
def decodeKey (w : Nat) : Option Op :=
  (KOp.ofCode (w % 256)).bind fun f => keepWf (.key f (kfield w 22) (kfield w 18) (gfield w 13) (gfield w 8))

/-- Format S, opcode 0x04 (Table 4.9). -/
def decodeSvc (w : Nat) : Option Op :=
  (SOp.ofCode (w / 4194304 % 16) (w % 128)).bind fun f =>
    keepWf (.svc f (gfield w 17) (gfield w 12) (gfield w 7))

/-- Immediate operation of an opcode, `hi` being what a prefix supplied, if any (R159, R172). -/
def immOf (f : ImmOp) (hi : Option Nat) (w : Nat) : Op :=
  .imm f (gfield w 21) (gfield w 16) hi.isSome (BitVec.ofNat 32 (hi.getD 0 * 65536 + w % 65536))

/-- Memory instruction (R175). -/
def memOf (sp : Space) (st : Bool) (wd : Width) (hi : Option Nat) (w : Nat) : Op :=
  .mem sp st wd (gfield w 21) (gfield w 16) hi.isSome (BitVec.ofNat 32 (hi.getD 0 * 65536 + w % 65536))

/-- Branch (R181). -/
def brOf (f : BrOp) (hi : Option Nat) (w : Nat) : Op :=
  .br f (gfield w 21) (gfield w 16) hi.isSome (BitVec.ofNat 32 (hi.getD 0 * 65536 + w % 65536))

/-- Space of a memory opcode (R175). -/
def Space.ofCode : Nat → Space
  | 0 => .ldm | 1 => .req | 2 => .rpl | 3 => .con | _ => .scr

/-- Width of a memory opcode (R175). -/
def Width.ofCode : Nat → Width
  | 0 => .b | 1 => .h | 2 => .w | _ => .d

/-- The prefixable opcodes (R161), with the immediate's upper half where a prefix stands before the word. -/
def decodeLong (hi : Option Nat) (w : Nat) : Option Op :=
  match w / 67108864 % 64 with
  | 5 => some (immOf .addi hi w)
  | 6 => some (immOf .andi hi w)
  | 7 => some (immOf .ori hi w)
  | 8 => some (immOf .xori hi w)
  | 9 => some (immOf .slti hi w)
  | 10 => some (immOf .sltiu hi w)
  | 11 => some (immOf .lih hi w)
  | 0x39 => some (brOf .eq hi w)
  | 0x3A => some (brOf .ne hi w)
  | 0x3B => some (brOf .lt hi w)
  | 0x3C => some (brOf .ge hi w)
  | 0x3D => some (brOf .ltu hi w)
  | 0x3E => some (brOf .geu hi w)
  | o =>
    if 0x10 ≤ o ∧ o < 0x38 then
      some (memOf (.ofCode ((o - 16) / 8)) ((o - 16) / 4 % 2 == 1) (.ofCode ((o - 16) % 4)) hi w)
    else none

/-- An unprefixed word; `none` for a reserved encoding (Table 4.2, R207). The prefix itself is no instruction. -/
def decodeWord (w : Nat) : Option Op :=
  match w / 67108864 % 64 with
  | 0 => decodeReg w
  | 1 => decodeMul w
  | 2 => decodeFlow w
  | 3 => decodeKey w
  | 4 => decodeSvc w
  | 12 =>
    if w / 64 % 4 ≠ 0 then none
    else (ShOp.ofCode (w / 256 % 256)).map fun f => .sh f (gfield w 21) (gfield w 16) (BitVec.ofNat 6 (w % 64))
  | 13 => if w / 65536 % 32 = 0 then some (.stat (gfield w 21) (BitVec.ofNat 16 (w % 65536))) else none
  | 14 => if w / 2097152 % 32 = 0 then keepWf (.loop (gfield w 16) (BitVec.ofNat 16 (w % 65536))) else none
  | 15 => some (.jmp false (BitVec.ofNat 26 (w % 67108864)))
  | 0x38 => some (.jmp true (BitVec.ofNat 26 (w % 67108864)))
  | _ => decodeLong none w

/-- What stands at a word offset of the code (R159-R165). -/
inductive Fetched where
  /-- an instruction of `len` words -/
  | op (o : Op) (len : Nat)
  | reserved
  /-- a well-formed prefix as the last word: a fall-through (R165) -/
  | dangling
  /-- no word at this offset -/
  | outside
deriving DecidableEq, Repr

/-- Decode a list of code words that starts at the program counter. -/
def decodeWords : List Nat → Fetched
  | [] => .outside
  | w :: rest =>
    if w / 67108864 % 64 = 0x3F then
      if w / 65536 % 1024 ≠ 0 then .reserved
      else match rest with
        | [] => .dangling
        | x :: _ => match decodeLong (some (w % 65536)) x with
          | some o => .op o 2
          | none => .reserved
    else match decodeWord w with
      | some o => .op o 1
      | none => .reserved

/-- Decode at the program counter. -/
def decodeAt (code : List Nat) (pc : Nat) : Fetched := decodeWords (code.drop pc)

/-! ### The encoder -/

/-- A word of a prefixable instruction, after its prefix if it has one (R159). -/
def encodeLong (opc d a : Nat) (pfx : Bool) (v : BitVec 32) : List Nat :=
  let w := opc * 67108864 + d * 2097152 + a * 65536 + v.toNat % 65536
  if pfx then [0x3F * 67108864 + v.toNat / 65536, w] else [w]

/-- The words of a well-formed operation (Tables 4.1 to 4.9). -/
def encode : Op → List Nat
  | .reg f d a b => [d.val * 2097152 + a.val * 65536 + b.val * 2048 + f.code]
  | .mul f d a b => [67108864 + d.val * 2097152 + a.val * 65536 + b.val * 2048 + f.code]
  | .nop => [0x08000000]
  | .ret => [0x08000001]
  | .jr a => [0x08000002 + a.val * 65536]
  | .callr a => [0x08000003 + a.val * 65536]
  | .imm f d a pfx v => encodeLong f.code d.val a.val pfx v
  | .sh f d a n => [12 * 67108864 + d.val * 2097152 + a.val * 65536 + f.code * 256 + n.toNat]
  | .stat d idx => [13 * 67108864 + d.val * 2097152 + idx.toNat]
  | .loop a e => [14 * 67108864 + a.val * 65536 + e.toNat]
  | .jmp call off => [(if call then 0x38 else 15) * 67108864 + off.toNat]
  | .mem sp st wd d a pfx off =>
    encodeLong (16 + 8 * sp.code + (if st then 4 else 0) + wd.code) d.val a.val pfx off
  | .br f a b pfx off => encodeLong f.code a.val b.val pfx off
  | .key f kd ka g gs =>
    [3 * 67108864 + kd.val * 4194304 + ka.val * 262144 + g.val * 8192 + gs.val * 256 + f.code]
  | .svc f d a b =>
    [4 * 67108864 + f.code.1 * 4194304 + d.val * 131072 + a.val * 4096 + b.val * 128 + f.code.2]

/-- The command that a word spells by the opcode table's bits: no row of the table gives bits, so none. -/
def decodeTableWord (_nbits _w : Nat) : Option Instr := none

end Sys2Proof
end

