-- ==== Sys2Proof/Machine/Types.lean ====
section
/-! DEFINITION. The state of each block, as plain data. Default values are the reset values (INVENTORY.md, State). -/

namespace Sys2Proof.Machine

/-! ### Cores and work items (chapters 03 to 06) -/

/-- Buffer reference (R217): 8 bytes, kept as read. -/
structure BufRef where
  off : Nat := 0
  len : Nat := 0
  space : Nat := 0
  /-- bits [63:59] -/
  high : Nat := 0
deriving DecidableEq, Repr

/-- The hardware loop (R193): counter and active body. -/
structure Loop where
  count : Word
  top : Nat
  last : Nat
deriving DecidableEq, Repr

/-- The register state of a core, which a continuation carries (Table 3.6). -/
structure Ctx where
  g : Vector Word 32 := Vector.replicate 32 0
  k : Vector (Option KeyRec) 16 := Vector.replicate 16 none
  pc : Nat := 0
  loop : Option Loop := none
  stack : List Nat := []
deriving DecidableEq, Repr

/-- A ticket of a chain (R221): a status decided at issue and not yet complete, or the completed status. -/
structure Ticket where
  num : Nat
  fail : Option Nat := none
  done : Option Nat := none
  bound : Bool := false
deriving DecidableEq, Repr

/-- A record of an open transaction with its size under R269 and the tag of the instruction that added it. -/
structure TxRec where
  tag : Nat
  recd : Rec
  size : Nat
deriving DecidableEq, Repr

/-- An open journal transaction (R268). -/
structure Tx where
  recs : List TxRec := []
  /-- ceremonies whose authorisation it reserves (R418) -/
  ceremonies : List Nat := []
  /-- a `JCOMMIT` or `JABORT` waits for earlier key instructions (R819) -/
  closing : Bool := false
deriving DecidableEq, Repr

/-- Counts for the class-0 conditions C6-C9 (Table 6.3). -/
structure C0 where
  cycles : Nat := 0
  blocks : Nat := 0
  keyLoads : Nat := 0
  bigKey : Bool := false
  calls : Bool := false
  rngBytes : Nat := 0
deriving DecidableEq, Repr

/-- Where an item came from: Table 3.3 `CS_KIND` 0, 1, 2, before any continuation. -/
inductive Origin where
  | host | posted | delayed | sample
deriving DecidableEq, Repr

/-- A work item and, after dispatch, its chain (Tables 3.3 to 3.6). -/
structure Item where
  serial : Nat := 0
  origin : Origin := .host
  inst : Nat := 0
  dom : Nat := 0
  queue : Nat := 0
  cls : Nat := 0
  entry : Nat := 0
  deadline : Nat := 0
  admitted : Nat := 0
  reqId : Nat := 0
  sess : Option Nat := none
  retain : Bool := false
  digest : List Byte := []
  payload : List Byte := []
  /-- took a token (R284) -/
  reserved : Bool := false
  /-- dispatched under the hold (R288) -/
  held : Bool := false
  snap : Nat := 0
  budget : Nat := 0
  strokes : Nat := 0
  conts : Nat := 0
  replyCap : Nat := 0
  rpl : Memory := []
  image : Option Image := none
  csLast : Nat := 0
  tickets : List Ticket := []
  tx : Option Tx := none
  committed : Option Nat := none
  /-- eligible for output comparison so far (R258) -/
  eligible : Bool := true
  /-- the sample that the chain runs again, and the SHA3-256 of the records that its `JCOMMIT` did not apply (R643, R644) -/
  sample : Option Sample := none
  ranRecs : List Byte := []
  c0 : C0 := {}
deriving DecidableEq, Repr

/-- What a pending result waits for. -/
inductive Wait where
  | ready
  | job (n : Nat)
  | drbg
  | fill
  /-- the key instructions issued before a `JCOMMIT` (true) or `JABORT` (R819) -/
  | keys (commit : Bool)
deriving DecidableEq, Repr

/-- A pending register result of a service instruction (R211, R817). -/
structure PendG where
  reg : GReg
  value : Word := 0
  /-- a second register that it writes (`TIME`, R205) -/
  second : Option (GReg × Word) := none
  status : Nat := 0
  ldm : List (Nat × List Byte) := []
  rngLen : Option (Nat × Nat) := none
  /-- instance that the status is counted against, where it is not the item's own -/
  target : Option Nat := none
  wait : Wait := .ready
  /-- elapsed tick at which an `RNG` asked its DRBG (R257) -/
  asked : Nat := 0
deriving DecidableEq, Repr

/-- A pending key instruction (R212), with what it writes when it completes. -/
structure PendK where
  op : KOp
  kd : Option KReg := none
  gs : GReg := 0
  status : Nat := 0
  handle : Option KeyRec := none
  ldm : List (Nat × List Byte) := []
  dst : BufRef := {}
  out : List Byte := []
  tag : Nat := 0
  wait : Wait := .ready
  /-- elapsed tick of its issue, from which its draws have waited (Table 13.3) -/
  asked : Nat := 0
  /-- issued while a `JCOMMIT` or `JABORT` waited, which does not wait for it (R819) -/
  late : Bool := false
deriving DecidableEq, Repr

/-- One Zynfer core (03). `avail` gives the core cycle from which a register's value is usable, `scrLate` the registers of
scratch loads with the instructions to which their value still comes late (Table 4.12); `since` is the elapsed tick of the
item's assignment (R293). -/
structure Core where
  ctx : Ctx := {}
  ldm : Memory := []
  owner : Option Nat := none
  item : Option Item := none
  pendG : List PendG := []
  pendK : List PendK := []
  cycles : Nat := 0
  since : Nat := 0
  avail : List (Nat × Nat) := []
  scrLate : List (Nat × Nat) := []
deriving DecidableEq, Repr

/-- A 64-byte line of the program store: the image by domain, ID, version and body digest, code or constants, and the line
within that section (R151; log 98). -/
structure PLine where
  image : (Nat × Nat × Nat) × List Byte
  const : Bool
  line : Nat
deriving DecidableEq, Repr

/-- A crew's program cache (R151): the lines it holds, and how many it has filled. -/
structure PCache where
  lines : List PLine := []
  fills : Nat := 0
deriving DecidableEq, Repr

/-! ### Symmetric engines (chapter 10) -/

/-- Block of `CIPH`, `MACV` and `KMAC` (Table 5.5). -/
structure CiphBlk where
  mode : Nat := 0
  dir : Nat := 0
  k2 : Nat := 0
  aux : Nat := 0
  param : Nat := 0
  src : BufRef := {}
  dst : BufRef := {}
  iv : BufRef := {}
  aad : BufRef := {}
  tagRef : BufRef := {}
  rsvd : Nat := 0
deriving DecidableEq, Repr

/-- What a symmetric job does. -/
inductive JobOp where
  | ciph (b : CiphBlk) (key2 : Option KeyRec)
  | macv (b : CiphBlk)
  | kmac (b : CiphBlk)
  | hash (alg outLen : Nat) (src dst : BufRef)
  /-- the engine work of a `KDERIVE`, `KWRAP` or `KUNWRAP` (R446): its block count, the key that a wrap wraps, and what it reads
  and writes by reference -/
  | keyInstr (blocks : Nat) (wrapped : Option KeyRec) (reads writes : List BufRef)
  | cvupd (ctx : Nat) (src : BufRef)
deriving DecidableEq, Repr

/-- A cipher, hash or check-value job. -/
structure SymJob where
  num : Nat
  core : CoreId
  serial : Nat := 0
  inst : Nat := 0
  held : Bool := false
  op : JobOp
  key : Option KeyRec := none
  rand : List Byte := []
  ctr : Option Nat := none
  status : Nat := 0
  /-- has waited for a reservation (KSC_RES_WAIT) -/
  waited : Bool := false
  /-- outputs are discarded (R140, R461) -/
  scrub : Bool := false
  /-- block operations done when it last started or yielded, and the elapsed tick of that start; of its issue while it is queued
  (R456) -/
  blocks : Nat := 0
  since : Nat := 0
  /-- block operations done at its start or last resumption, from which yields are counted -/
  base : Nat := 0
  /-- status, flag and outputs, once its saved state or staging buffer holds them (R452, R456) -/
  out : Option (Nat × Bool × List (BufRef × List Byte)) := none
deriving DecidableEq, Repr

/-- A cipher or hash engine or a check-value unit (Table 10.5). -/
structure SymEngine where
  queue : List SymJob := []
  running : Option SymJob := none
  saved : List SymJob := []
  /-- key register (R449) -/
  keyReg : Option KeyRec := none
  online : Bool := false
  recovering : Bool := false
  katFail : Bool := false
  ops : Nat := 0
  checkFail : Nat := 0
  faults : Nat := 0
  yields : Nat := 0
deriving DecidableEq, Repr

/-- A check-value context (R246, R467). -/
structure CvCtx where
  width : Nat := 0
  reflIn : Bool := false
  reflOut : Bool := false
  tagMode : Nat := 0
  poly : Nat := 0
  init : Nat := 0
  xorOut : Nat := 0
  tag : Nat := 0
  reg : Nat := 0
deriving DecidableEq, Repr

/-! ### Big-number and lattice pools (chapters 11 and 12) -/

/-- A pool job (Table 5.7). -/
structure PoolJob where
  num : Nat
  core : CoreId
  serial : Nat
  inst : Nat
  keyed : Bool
  op : Nat
  key : Option KeyRec := none
  ins : List (List Byte) := []
  blk : Nat := 0
  outs : List BufRef := []
  spec : Option (KReg × Attrs) := none
  width : Nat := 0
  slots : Nat := 0
  /-- its randomness, and whether it has drawn what it needs (R485, R514) -/
  rand : List Byte := []
  drawn : Bool := false
  /-- a lattice job that missed: the mask of the cache entry that it fills (R509) -/
  fill : Option (List Byte) := none
  /-- since when its secret waits for the draw of `iv_fixed` (Table 13.3) -/
  asked : Option Nat := none
  /-- verify-after-sign and 128-bit blinding in force at its start (R486) -/
  vas : Bool := false
  blind128 : Bool := false
  aborted : Bool := false
  faulted : Bool := false
  /-- its expansion failed the digest check (R508) -/
  badExp : Bool := false
  scrub : Bool := false
deriving DecidableEq, Repr

/-- A completed pool job in the output store (R493, R501). -/
structure PoolDone where
  num : Nat
  serial : Nat
  inst : Nat
  status : Nat
  out : List Byte := []
  blk : Nat := 0
  outs : List BufRef := []
  handle : Option (KReg × KeyRec) := none
  place : Bool := true
deriving DecidableEq, Repr

/-- An expanded-key cache entry (R509). -/
structure ExpKey where
  name : KeyName
  changed : Nat
  filled : Nat
  used : Nat
  mask : List Byte := []
deriving DecidableEq, Repr

/-- A big-number or lattice engine (Tables 11.9, 12.6). -/
structure PoolEngine where
  loaded : List PoolJob := []
  running : Option PoolJob := none
  slotWords : Nat := 64
  /-- elapsed tick at which its first loaded job became the next to start (R485, R514) -/
  first : Nat := 0
  online : Bool := false
  recovering : Bool := false
  katFail : Bool := false
  ops : Nat := 0
  generic : Nat := 0
  invariant : Nat := 0
  faults : Nat := 0
  aborts : Nat := 0
  cache : List ExpKey := []
  hits : Nat := 0
  misses : Nat := 0
  signs : Nat := 0
  iters : Nat := 0
  iterMax : Nat := 0
deriving DecidableEq, Repr

/-- A pool: its queue, its engines, its output store. -/
structure Pool (n : Nat) where
  queue : List PoolJob := []
  engines : Vector PoolEngine n := Vector.replicate n {}
  done : List PoolDone := []
deriving DecidableEq, Repr

/-! ### Dispatcher (chapter 06) -/

/-- The state a parked chain carries (Table 3.6). -/
structure Carry where
  ctx : Ctx
  ldm : Memory
  ticket : Nat
deriving DecidableEq, Repr

/-- A work item in the dispatcher: not yet dispatched, or with the state its continuation carries. -/
structure Work where
  item : Item
  carry : Option Carry := none
deriving DecidableEq, Repr

/-- A delay-list entry (R296). -/
structure Delayed where
  item : Item
  due : Nat
  seq : Nat
  coarse : Bool
deriving DecidableEq, Repr

/-- A post or delay reserved until its chain's commit is visible (R266, R267). -/
structure Reserved where
  item : Item
  due : Option Nat := none
  /-- serial of the chain that reserved it -/
  owner : Nat
  csn : Option Nat := none
deriving DecidableEq, Repr

/-- The dispatcher. -/
structure Dsp where
  /-- queued and ready items in admission order -/
  work : List Work := []
  parked : List Work := []
  delay : List Delayed := []
  reserved : List Reserved := []
  deficits : List ((Nat × Nat) × Int) := []
  rings : Vector (List Nat) 4 := Vector.replicate 4 []
  lastQueue : List ((Nat × Nat) × Nat) := []
  credits : Vector Int 4 := Vector.replicate 4 0
  trace : List (Nat × Nat) := []
  wptr : Nat := 0
  wrapped : Bool := false
  full : Bool := false
  traceLost : Nat := 0
  lag : Nat := 0
  nextSerial : Nat := 0
  nextSeq : Nat := 0
  nextTicket : Nat := 1
  /-- elapsed tick of the last release, and how many entries that tick has released (R298) -/
  relAt : Nat := 0
  relCount : Nat := 0
  /-- number of the 1 ms boundary of elapsed time that last set the credits (R292) -/
  creditMs : Nat := 0
deriving DecidableEq, Repr

/-! ### Instances (chapter 07) -/

/-- Runtime states (Table 7.5), coded as `INS_STATE`. -/
inductive InstState where
  | disabled | active | quiescing | resetting | faulted
deriving DecidableEq, Repr

/-- An entry of the handling queue (R345). -/
inductive HqEvent where
  | reset | clear | faultLimit
deriving DecidableEq, Repr

/-- Runtime state of one instance (R338). Tokens are held in units of 1/16,000,000 (R284). -/
structure InstRt where
  id : Nat
  state : InstState := .disabled
  ending : InstState := .active
  draining : Bool := false
  quiesceAt : Nat := 0
  winStart : Nat := 0
  winCount : Nat := 0
  ovf : Nat := 0
  hq : List HqEvent := []
  tokens : Nat := 0
  tokenAt : Nat := 0
deriving DecidableEq, Repr

/-! ### Committed configuration and key store (chapters 07 to 09, 20) -/

/-- A configured instance. -/
structure InstCfg where
  dom : Nat
  enabled : Bool
  share : Share
deriving DecidableEq, Repr

/-- The committed state as of one CSN. -/
structure Cfg where
  domains : List Nat := []
  insts : List (Nat × InstCfg) := []
  queues : List (Nat × QBlock) := []
  binds : List (Nat × (Nat × Nat × Nat)) := []
  images : List ((Nat × Nat × Nat) × List Byte) := []
  floors : List ((Nat × Nat) × Nat) := []
  officers : List (Nat × List Officer) := []
  policies : List (Nat × List PolicyEntry) := []
  settings : List (Nat × Settings) := []
  usages : List ((Nat × Nat) × Usage) := []
  profile : ProfileRec := {}
  keys : List KeyRec := []
  /-- last generation of every index ever used (R363) -/
  gens : List ((Nat × Nat) × Nat) := []
deriving DecidableEq, Repr

/-- An entry of Table 7.2a, for R51. -/
inductive Entry where
  | domain (d : Nat)
  | instSet (d : Nat)
  | inst (i : Nat)
  | queueSet (i : Nat)
  | queue (q : Nat)
  | binding (q : Nat)
  | bindSet (d image version : Nat)
  | image (d image version : Nat)
  | floor (d image : Nat)
  | quorum (kind scope : Nat)
  | profile
  | tally
  | key (n : KeyName)
deriving DecidableEq, Repr

/-- A live invocation counter: next value, end of the visible reservation (exclusive), and whether the unit has
reserved since it became active (R387-R391, R816). -/
structure Counter where
  next : Nat := 0
  limit : Nat := 0
  /-- base of the highest reservation requested -/
  base : Nat := 0
  fresh : Bool := true
deriving DecidableEq, Repr

/-- One 64-byte entry of the key cache: material XOR mask, the mask, and its last visit (R380, R381). -/
structure CacheEntry where
  value : List Byte
  mask : List Byte
  masked : Nat
deriving DecidableEq, Repr

/-- Key-cache residence of one key (R380-R386). -/
structure Cached where
  name : KeyName
  inst : Nat
  used : Nat
  slots : List CacheEntry
deriving DecidableEq, Repr

/-- Entries that a cached key takes. -/
def Cached.entries (x : Cached) : Nat := x.slots.length

/-- The module's own keys as seeds (R440): identity and attestation ML-DSA-44, backup ML-KEM-1024. -/
structure OwnKeys where
  identity : List Byte := []
  attest : List Byte := []
  backup : List Byte := []
  /-- SHA3-256 of the attestation public key, as stored beside its seed -/
  attestDigest : List Byte := []
deriving DecidableEq, Repr

/-- A superseded or deleted sealed copy in NAND: its key, its block, and when it came to be one (R379). -/
structure OldCopy where
  key : KeyName
  block : Nat
  since : Nat
deriving DecidableEq, Repr

/-- The key store controller, the journal engine and the program store. -/
structure Ksc where
  rootCheck : Option (List Byte) := none
  loaded : Bool := false
  rootOk : Bool := false
  readOnly : Bool := false
  pufErr : Nat := 0
  wseq : Nat := 0
  /-- K_record and K_journal while the KSC holds them (Table 8.1) -/
  kRecord : Option (List Byte) := none
  kJournal : Option (List Byte) := none
  own : Option OwnKeys := none
  /-- `wseq` of each record of a key at its last write (Table 8.2) -/
  recWseq : List (KeyName × List Nat) := []
  base : Cfg := {}
  baseCsn : Nat := 0
  commits : List Commit := []
  /-- D of the commit with CSN `baseCsn` (R635) -/
  digest0 : List Byte := List.replicate 16 0
  /-- write sequence that each sealed commit block took as its IV (R393) -/
  blockWseq : List (Nat × Nat) := []
  /-- highest CSN programmed on each of the two dies (R393) -/
  die0 : Nat := 0
  die1 : Nat := 0
  durable : Nat := 0
  v : Nat := 0
  counters : List (KeyName × Counter) := []
  nextUid : Nat := 1
  issued : List (Nat × Nat × Nat) := []
  cache : List Cached := []
  useClock : Nat := 0
  resWait : Nat := 0
  erase : List OldCopy := []
  /-- keys whose delete is visible and whose material is not yet overwritten (R378) -/
  deleted : List KeyName := []
  spares : Nat := Config.nandBlocks * 2 / 100
  /-- erase counts of NAND blocks (R399) -/
  erases : List (Nat × Nat) := []
  /-- instances that were FAULTED when the unit last served (R344) -/
  wasFaulted : List Nat := []
  /-- requester tuples of commits that became durable: tuple, CSN, SINGLE, elapsed time (R677) -/
  tuples : List (Requester × Nat × Bool × Nat) := []
  /-- CSN up to which the deletes of visible commits have queued their erasures (R321, R379) -/
  erasedTo : Nat := 0
  /-- deleted domains whose records are not yet erased (R321) -/
  erasing : List Nat := []
  images : List Image := []
  /-- incomplete uploads, and complete ones, by domain, image and version (R759) -/
  staging : List ((Nat × Nat × Nat) × List Byte) := []
  staged : List ((Nat × Nat × Nat) × List Byte) := []
  /-- files that passed R146 for a load that is submitted and not yet visible -/
  loading : List ((Nat × Nat × Nat) × List Byte) := []
deriving DecidableEq, Repr

/-! ### Meridian (chapter 02) -/

inductive Servo where
  | acquiring | fix | deadReckoning | adrift
deriving DecidableEq, Repr

/-- A delay request-response exchange (Table 2.1, R581): when the Sync arrived and when the Delay_Req that answers it left, in
1/256 tick of T; and, once known, the origin time of the Sync and the time at which the grandmaster received the request, in
ns. -/
structure Exchange where
  rx : Nat
  tx : Nat
  origin : Option Nat := none
  received : Option Nat := none
deriving DecidableEq, Repr

/-- The Meridian timebase. `elapsed` counts ticks of advance, steps excluded (R98). -/
structure Mer where
  t : Nat := 0
  elapsed : Nat := 0
  unc : Nat := 0xFFFFFFFF
  state : Servo := .acquiring
  initialSet : Bool := false
  ppsGood : Bool := false
  ppsRun : Nat := 0
  ppsMiss : Nat := 0
  ppsAt : Nat := 0
  qualified : Bool := false
  stepPending : Bool := false
  acqConflict : Bool := false
  stepTicks : Nat := 0
  /-- Δ that steering has not yet removed, in units of 0.5 ns -/
  offset : Int := 0
  slew : Int := 0
  slewAcc : Int := 0
  offsets : List Int := []
  gm : Option Announce := none
  gmAt : Nat := 0
  /-- measured path delay in ns -/
  pathDelay : Nat := 0
  lastSync : Nat := 0
  /-- a two-step Sync that awaits its Follow_Up: sequence and receive time in ns -/
  sync : Option (Nat × Nat) := none
  /-- the exchange that measures the path delay next -/
  exchange : Option Exchange := none
  uAnchor : Nat := 0xFFFFFFFF
  uAt : Nat := 0
  okSince : Option Nat := none
  /-- a forward step of at most 1 s that waits for its tick (R90) -/
  pendingStep : Option Nat := none
  /-- u_seed in ns, where the RTC was valid at start (R85, R86) -/
  uSeed : Option Nat := none
  rtcNext : Option Nat := none
  ptpRej : Nat := 0
  ppsRej : Nat := 0
deriving DecidableEq, Repr

/-! ### Random numbers (chapter 13) -/

inductive SrcState where
  | off | startTest | healthy | retest | retired
deriving DecidableEq, Repr

inductive DrbgState where
  | unseeded | serving
deriving DecidableEq, Repr

/-- A CTR_DRBG instance (R528): its key and V. -/
structure Drbg where
  state : DrbgState := .unseeded
  key : List Byte := []
  v : List Byte := []
  reqs : Nat := 0
  reseeds : Nat := 0
deriving DecidableEq, Repr

/-- A consumer of the system DRBG, by its wire (Table 13.3): the last two stand for the ports, and for the parts of the module
that the table does not list. -/
inductive Wire where
  | ksc | bne | lte | qrm | mec | data | ports | unit
deriving DecidableEq, Repr

structure Rng where
  src : Vector SrcState 4 := Vector.replicate 4 .off
  repeats : Vector Nat 4 := Vector.replicate 4 0
  /-- finished seeds, oldest first -/
  seedBuf : List (List Byte) := []
  seeds : Nat := 0
  drbg : Vector Drbg 9 := Vector.replicate 9 {}
  alarm : Bool := false
  retests : Nat := 0
  rctFails : Nat := 0
  aptFails : Nat := 0
  data : Option (BitVec 64) := none
  /-- the wire granted last, and the wires that wait with the tick since when (R530) -/
  last : Wire := .unit
  waits : List (Wire × Nat) := []
deriving DecidableEq, Repr

/-! ### Ports, sessions and retention (chapters 14 and 15) -/

inductive SessState where
  | halfOpen | established | rekeying | resyncing | closing
deriving DecidableEq, Repr

/-- A reply record waiting to be sent. -/
structure Reply where
  reqId : Nat
  status : Nat
  rflags : Nat := 0
  csn : Nat := 0
  payload : List Byte := []
  class0 : Bool := false
  waiting : Nat := 0
  /-- the answer of the request's own item, not of a repetition or of a refused one (R596) -/
  own : Bool := false
deriving DecidableEq, Repr

/-- A frame the module sent and the host has not acknowledged. -/
structure TxFrame where
  seq : Nat
  typ : Nat
  flags : Nat := 0
  body : List Byte := []
  gen : Nat := 0
  sentAt : Nat := 0
  rtoAt : Nat := 0
  resent : Bool := false
  fast : Nat := 0
  /-- an ACK frame: its timeout runs (R591) -/
  runs : Bool := false
  /-- request IDs whose reply this frame is the first to carry (R599) -/
  replies : List Nat := []
  /-- the reply whose record, or a fragment of it, this frame carries (R608) -/
  carries : Option Reply := none
  class0 : Bool := false
deriving DecidableEq, Repr

/-- An incomplete segmented request (R557). -/
structure Segs where
  msg : Nat
  count : Nat
  parts : List (Nat × List Byte) := []
deriving DecidableEq, Repr

/-- What the module does once the anchor of a new generation is mirrored: send the REKEY that names sequence `sw`, or answer a
RESYNC of a cause. -/
inductive AnchorStep where
  | rekey (sw : Nat)
  | resync (cause : Nat)
deriving DecidableEq, Repr

/-- A session (chapters 14 and 15). -/
structure Session where
  id : Nat
  port : Nat
  state : SessState := .halfOpen
  mgmt : Bool := false
  dom : Nat := 0
  home : Nat := 0
  cred : KeyName := { dom := 0, idx := 0, gen := 0 }
  alg : Nat := 0
  /-- S_g of generation `gen` (R565) -/
  sg : List Byte := []
  /-- direction keys and IVs in the port's AEAD unit, by generation (R565, R576) -/
  keys : List (Nat × List Byte) := []
  /-- TH of its handshake (R564) -/
  th : List Byte := []
  gen : Nat := 0
  genStart : Nat := 0
  genTx : Nat := 0
  genRx : Nat := 0
  helloDigest : List Byte := []
  accept : List Byte := []
  path : Path := {}
  pathSeq : Option Nat := none
  opened : Nat := 0
  confirmParts : List (Nat × List Byte) := []
  /-- highest sequence among those fragments, and its path (R558) -/
  confirmPath : Option (Nat × Path) := none
  txSeq : Nat := 0
  unacked : List TxFrame := []
  peerAck : Nat := 0
  peerWin : Nat := 0
  ackedAt : Nat := 0
  /-- sequences from `peerAck` on that the host has accepted (R585, R591) -/
  peerSet : List Nat := []
  rxCum : Nat := 0
  rxSet : List Nat := []
  advWin : Nat := 256
  lastRx : Nat := 0
  lastTx : Nat := 0
  ackDue : Option Nat := none
  dupAckAt : Option Nat := none
  rto : Nat := 16000
  srtt : Nat := 0
  rttvar : Nat := 0
  segs : List Segs := []
  outq : List Reply := []
  rekeyReqAt : Option Nat := none
  rxSwitch : Option Nat := none
  txSwitch : Option Nat := none
  rekeyAt : Option Nat := none
  oldGen : Option Nat := none
  resyncAt : Option Nat := none
  closeSeq : Option Nat := none
  closeAt : Nat := 0
  /-- status and reason of a CLOSE that has not left yet (R571, R593) -/
  closeWith : Option (Nat × Nat) := none
  anchored : Bool := false
  /-- what waits for an anchor to be mirrored, and for the host's window (R574, R593, R611) -/
  awaits : Option AnchorStep := none
  /-- that anchor is mirrored -/
  mirrored : Bool := false
  /-- anchored by the pair's other unit, on whose management port it lives (R571) -/
  foreign : Bool := false
  /-- replies of settled frames, whose records go out again (R608) -/
  again : List Reply := []
deriving DecidableEq, Repr

/-- A reply-retention entry (R596). -/
structure Retained where
  sess : Nat
  reqId : Nat
  digest : List Byte
  reply : Option Reply := none
  sentAt : Option Nat := none
  acked : Bool := false
  again : Nat := 0
  mirrored : Bool := false
  /-- CSN and SINGLE of a commit whose reply was lost with the failed unit (R637) -/
  orphan : Option (Nat × Bool) := none
  /-- bytes that its reply may take (R598) -/
  room : Nat := 0
deriving DecidableEq, Repr

/-- One host port, or the management port (Tables 14.17 and 15.8). -/
structure Port where
  linkUp : Bool := false
  service : Bool := false
  vlan : Vector Nat 8 := Vector.replicate 8 0
  dropLink : Nat := 0
  dropWsp : Nat := 0
  aeadFail : Nat := 0
  helloOk : Nat := 0
  helloDrop : Nat := 0
  beaconOk : Nat := 0
  beaconDrop : Nat := 0
  beaconSec : Nat := 0
  beaconCount : Nat := 0
  tsRx : Nat := 0
  tsTx : Nat := 0
  dups : Nat := 0
  beyond : Nat := 0
  retx : Nat := 0
  replayed : Nat := 0
  idConflict : Nat := 0
  closesTimeout : Nat := 0
  closesError : Nat := 0
  resyncs : Nat := 0
  resyncDrop : Nat := 0
  /-- announcements still due, with their elapsed times (R547) -/
  announce : List Nat := []
deriving DecidableEq, Repr

/-- A reply held until V reaches its commit (R55). -/
structure HeldReply where
  csn : Nat
  sess : Nat
  reply : Reply
deriving DecidableEq, Repr

structure Net where
  ports : Vector Port 5 := Vector.replicate 5 {}
  /-- the configuration record in Cox's NAND partition (R548): registers by port and offset, and the VLAN entries of each port
  -/
  record : List ((Nat × Nat) × BitVec 32) := []
  vlanRecord : Vector (Vector Nat 8) 5 := Vector.replicate 5 (Vector.replicate 8 0)
  sessions : List Session := []
  quarantine : List (Nat × Nat) := []
  retention : List Retained := []
  held : List HeldReply := []
  lostReplies : Nat := 0
  cookieEpoch : Nat := 0
  cookieKey : List Byte := []
  cookieOld : List Byte := []
  /-- HELLO frames that wait for the system DRBG (R566, R531) -/
  hellos : List Frame := []
deriving DecidableEq, Repr

/-! ### Pair (chapter 16) -/

inductive PairState where
  | undecided | active | standby | single | isolated | divergent | joining
deriving DecidableEq, Repr

/-- An arbitration (Table 16.8): its sample, this unit's first result, the rounds that ended without agreement, and in the
current round whether this unit's tests passed, its re-run's digest and what the peer reported. -/
structure Arb where
  sample : Sample
  own : List Byte
  rounds : Nat := 0
  tests : Bool := true
  rerun : Option (List Byte) := none
  peer : Option ArbMsg := none
deriving DecidableEq, Repr

structure Prl where
  state : PairState := .undecided
  /-- the role held on entry to DIVERGENT (Table 16.2) -/
  role : PairState := .undecided
  unitId : Nat := 0
  peerId : Nat := 0
  paired : Bool := false
  preferred : Bool := false
  solo : Bool := false
  renounced : Bool := false
  retired : Bool := false
  fence : Bool := false
  aliveIn : Bool := false
  /-- the peer yields (R627) -/
  peerYield : Bool := false
  linkUp : Bool := false
  lastRx : Nat := 0
  lossAt : Nat := 0
  failover : Bool := false
  joinConflict : Bool := false
  joined : Bool := false
  /-- serving unit: a peer is catching up (R639) -/
  peerJoining : Bool := false
  peerDur : Nat := 0
  peerV : Nat := 0
  peerTime : Nat := 0
  peerUnc : Nat := 0
  peerServo : Nat := 0
  peerSlew : Int := 0
  epoch : Nat := 0
  /-- K_pair (R621) -/
  pairKey : Option (List Byte) := none
  /-- the join epoch and sequence of the peer have been taken since this unit began to join (log 29) -/
  epochKnown : Bool := false
  joinSent : Bool := false
  /-- the steps of R651 run -/
  yielding : Bool := false
  txSeq : Nat := 0
  rxSeq : Nat := 0
  /-- frames not yet acknowledged: sequence, type, content -/
  unacked : List (Nat × Nat × List Nat) := []
  ackAt : Nat := 0
  lastTx : Nat := 0
  standbySince : Nat := 0
  handbackAt : Option Nat := none
  pendingSolo : Bool := false
  pendingRenounce : Bool := false
  joinStart : Nat := 0
  samples : List Sample := []
  arbitrations : List Arb := []
  divList : List DivEntry := []
  divAll : Bool := false
  compared : Nat := 0
  mismatches : Nat := 0
  skipped : Nat := 0
  crcFail : Nat := 0
  tagFail : Nat := 0
  retx : Nat := 0
  takeovers : Nat := 0
  handbacks : Nat := 0
  joins : Nat := 0
  tailDiscards : Nat := 0
deriving DecidableEq, Repr

/-! ### Memory protection (chapter 17) -/

/-- A region whose state is not the initial one: generation, state code of `MEC_REGION`, poisoned lines. -/
structure Region where
  gen : Nat := 0
  poison : List (Nat × Nat) := []
deriving DecidableEq, Repr

/-- A region sweep (R664, R671). -/
structure Sweep where
  region : Nat
  rebuild : Bool := false
deriving DecidableEq, Repr

/-- A DRAM line of 64 bytes: its write counter, ciphertext and MAC (R660, R661). -/
structure DramLine where
  ctr : Nat
  cipher : List Byte
  mac : List Byte
deriving DecidableEq, Repr

structure Mec where
  /-- lines that the debug port wrote, by line address [39:6], rising (R660, R661, log 9) -/
  dram : List (Nat × DramLine) := []
  regions : List (Nat × Region) := []
  sweeps : List Sweep := []
  rebuilds : List Nat := []
  masterRunning : Bool := false
  boundary : Nat := 0
  drawnAt : Nat := 0
  /-- M (empty: none), and M′ with its draw while a master rekey runs -/
  master : List Byte := []
  masterNew : List Byte := []
  /-- a full rebuild has still to draw M -/
  masterDue : Bool := false
  drawnNew : Nat := 0
  paused : Bool := false
  ce : Nat := 0
  ue : Nat := 0
  regionRebuilds : Nat := 0
  fullRebuilds : Nat := 0
  regionRekeys : Nat := 0
  masterRekeys : Nat := 0
deriving DecidableEq, Repr

/-- One protection region (R681). -/
structure Rule where
  start : Nat := 0
  end_ : Nat := 0x1F
  attr : Nat := 0
deriving DecidableEq, Repr

/-- A rule set: the rules that differ from the reset rule, by unit and region. -/
abbrev Rules := List ((Nat × Nat) × Rule)

structure Apu where
  shadow : Rules := []
  active : Rules := []
  prev : Rules := []
  epoch : Nat := 0
  pending : Bool := false
  faults : Nat := 0
  debugDenied : Nat := 0
  last : Nat := 0
deriving DecidableEq, Repr

/-! ### Binnacle (chapter 18) -/

/-- An evidence event (Table 18.7). -/
structure Evidence where
  rtc : Nat
  src : Nat
  resp : Nat
  phase : Nat
  flags : Nat
  stage : Nat
  cycles : Nat
  detail : Nat
  optime : Nat
deriving DecidableEq, Repr

structure Source where
  active : Bool := false
  count : Nat := 0
  absentAt : Option Nat := none
  /-- the tick of the RTC's own count at which the absence began, for a time on backup -/
  absentRtc : Nat := 0
deriving DecidableEq, Repr

structure Bin where
  share : Bool := false
  shareId : Nat := 0
  rtc : Nat := 0
  rtcAcc : Nat := 0
  rtcValid : Bool := false
  rtcSetAt : Nat := 0
  sources : Vector Source 29 := Vector.replicate 29 {}
  /-- configured responses; those of sources 0-15 are battery-backed, the others return to their defaults at a start -/
  resp : Vector (Option Nat) 29 := Vector.replicate 29 none
  throttle : List Nat := []
  lockNew : Bool := false
  lock : Bool := false
  zeroize : Bool := false
  disabled : Nat := 0
  /-- the copy of those fuses that the last start took, which serves on backup (R706, Table 18.1) -/
  fuseCopy : Nat := 0
  pend : List Evidence := []
  overflow : Nat := 0
  store : List (Evidence × Nat) := []
  used : Nat := 0
  evidenceLost : Nat := 0
  queueLost : Nat := 0
  firstPower : Bool := false
  cycles : Nat := 0
  officerDigest : Option (List Byte) := none
  vbat : Nat := 0
  temp : Int := 0
  meshFail : Nat := 0
  /-- seeds of the eight loops and the 16 mesh loops, two bytes each (R699) -/
  seeds : List Byte := []
  /-- firings whose Log records entered the alarm record queue in one elapsed tick, and that tick (R712, log 58) -/
  queued : Nat := 0
  queuedAt : Nat := 0
deriving DecidableEq, Repr

/-! ### Life cycle, firmware and debug (chapter 19) -/

/-- A life-cycle transition in progress or the latest progress record (Table 19.8). -/
structure Progress where
  code : Nat
  marks : Nat
  token : Nat := 0
deriving DecidableEq, Repr

structure Lcf where
  words : Vector (BitVec 16) 24 := Vector.replicate 24 0
  progress : List Progress := []
  stage : Nat := 0
  holdWater : Bool := false
  romHold : Bool := false
  failure : Nat := 0
  running : Bool := false
  tokens : List (List Byte) := []
  tokensUsed : Nat := 0
  badTokens : Nat := 0
  floor : Nat := 0
  slotB : Bool := false
  slotAFw : FwSlot := {}
  slotBFw : FwSlot := {}
  /-- parts of a firmware upload so far (R759) -/
  fwStage : List Byte := []
  owner : Option (List Byte) := none
  chalCnt : Nat := 0
  /-- the latest challenge, 60 bytes (R748) -/
  challenge : Option (List Byte) := none
  thapraOk : Bool := false
  ownerOk : Bool := false
  /-- PUF helper data in OTP (R357), and the seed of Cox's service key (R733) -/
  pufHelper : Option (List Byte) := none
  serviceSeed : Option (List Byte) := none
  /-- a transition that was authorised in SERVICE restarts the unit at its end (R737) -/
  restartAfter : Bool := false
  /-- word count of the state that stays in force until the next start (transitions 2 and 3) -/
  held : Option Nat := none
  deferredFailure : Nat := 0
deriving DecidableEq, Repr

structure Dbg where
  level : Nat := 0
  zeroized : Bool := false
  granted : Nat := 0
  refused : Nat := 0
deriving DecidableEq, Repr

/-! ### Log, counters, power, Drill, SMBus, quorum (chapters 09, 20, 21) -/

/-- A Log record (Table 20.2). -/
structure LogRec where
  event : Nat
  source : Nat
  sev : Nat
  flags : Nat := 0
  optime : Nat := 0
  cycles : Nat := 0
  target : Nat := 0
  rseq : Nat := 0
  params : List Nat := []
deriving DecidableEq, Repr

structure Log where
  ring : List (Nat × LogRec) := []
  wptr : Nat := 0
  undrained : Nat := 0
  nand : List (Nat × LogRec) := []
  head : Nat := 0
  wrapped : Bool := false
  frozen : Option Nat := none
  missed : Nat := 0
  side : List LogRec := []
  sideLost : Nat := 0
  rseq : Nat := 0
  trbInst : List ((Nat × Nat) × Nat) := []
  trbMod : List (Nat × Nat) := []
  optime : Nat := 0
  optimeAt : Nat := 0
  savedOptime : Nat := 0
  savedCycles : Nat := 0
  orderlyLast : Bool := false
deriving DecidableEq, Repr

structure Pwr where
  vmainOk : Bool := false
  vmainAt : Nat := 0
  pwrGood : Bool := false
  pwrGoodAt : Nat := 0
  resetN : Bool := true
  mainPower : Bool := false
  downRunning : Bool := false
  /-- PWR_GOOD was re-asserted, or RESET_N released, during the power-down that runs (R792) -/
  startAsked : Bool := false
  /-- a start that a power-down delayed runs from this elapsed tick on (R792) -/
  startAt : Nat := 0
  starting : Bool := false
  effective : Nat := 0
  committed : ProfileRec := {}
  forced : Bool := false
  pending : Option (ProfileRec × Nat) := none
  limiting : Bool := false
  inputDw : Nat := 0
  /-- domains powered on, by number -/
  domains : List Nat := []
  /-- domains that finish powering down, or up -/
  goingDown : List Nat := []
  goingUp : List Nat := []
  limitEvents : Nat := 0
  /-- forced profile ends at this whole second -/
  unforceAt : Option Nat := none
deriving DecidableEq, Repr

structure Smb where
  alert : Bool := false
  faceOut : Bool := false
deriving DecidableEq, Repr

/-- Ceremony states, coded as `QRM_CER_STATE`. -/
inductive CerState where
  | open | complete | carriedOut | lapsed | cancelled | failed
deriving DecidableEq, Repr

/-- A ceremony (R413). -/
structure Ceremony where
  number : Nat
  cls : Nat
  scope : Nat
  body : List Byte
  close : Nat
  nonce : List Byte
  state : CerState := .open
  slots : List Nat := []
  components : List (List Byte) := []
  /-- components accepted -/
  accepted : Nat := 0
  /-- seed of its ML-KEM-768 key pair (R424) -/
  dk : List Byte := []
  k : Nat := 0
  reservedBy : Option Nat := none
  input : List Byte := []
  inputDone : Bool := false
  output : List Byte := []
  doneAt : Option Nat := none
  status : Nat := 0
  /-- since when the KSC waits for the draw that carries it out (Table 13.3) -/
  asked : Option Nat := none
deriving DecidableEq, Repr

/-- An approval submission (Table 9.5a). -/
structure Submission where
  number : Nat
  slot : Nat
  alg : Nat
  kcv : List Byte
  pk : List Byte
  sig : List Byte
  envelope : List Byte
deriving DecidableEq, Repr

structure Qrm where
  cers : List Ceremony := []
  nextNum : Nat := 1
  fails : List Nat := []
  total : Nat := 0
  copy : Option (List Officer × List PolicyEntry) := none
  /-- opens that wait for the system DRBG, with the tick since when (Table 13.3) -/
  opens : List (Mgmt × Nat) := []
deriving DecidableEq, Repr

/-! ### What leaves the module -/

/-- IP and VLAN fields of a frame that the module sends (R550, `HPT_VLAN`). -/
structure IpTx where
  df : Bool := true
  ttl : Nat := 64
  dscp : Nat := 0
  /-- priority code point, on a VLAN -/
  pcp : Nat := 0
deriving DecidableEq, Repr

/-- Output of the module (log 11). -/
inductive Out where
  /-- a WSP frame on a port -/
  | frame (port : Nat) (path : Path) (ip : IpTx) (hdr : FrameHdr) (body tag : List Byte)
  /-- answer to an ARP request, neighbour solicitation or echo request, on the VLAN that brought it -/
  | arp (port addr : Nat) (vlan : Option Nat)
  | nd (port addr : Nat) (vlan : Option Nat) (ip : IpTx)
  | echo (port addr : Nat) (vlan : Option Nat) (ip : IpTx)
  /-- announcement of a service address: a gratuitous ARP, or an unsolicited neighbour advertisement -/
  | gratuitousArp (port addr : Nat)
  | advertisement (port addr : Nat) (ip : IpTx)
  /-- a PLP message: type and first word of its content -/
  | plp (typ seq : Nat) (content : List Nat)
  /-- SMBus block data, or a NACK -/
  | smb (bytes : List Byte)
  | smbNack
  /-- a value read from a register -/
  | regRead (addr : Nat) (v : BitVec 32)
  /-- status of a configuration transaction that Cox ran -/
  | txStatus (status csn : Nat)
  /-- a debug read -/
  | debug (data : List Byte)
  /-- Delay_Req to the grandmaster -/
  | delayReq (port : Nat)
  /-- a frame in which Drill inverted one bit, at the given position (R776) -/
  | corrupt (bit : Nat) (o : Out)
deriving DecidableEq, Repr

/-! ### Drill (chapter 20) -/

/-- A received PLP message by its kind (Table 16.5). -/
inductive PlpMsg where
  | heartbeat (x : PeerState)
  | commit (c : Commit)
  | commitAck (csn : Nat)
  | anchor (a : AnchorMsg)
  | retain (r : Requester) (reply : Option ReplyMsg) (remove : Bool)
  | quarantine (sess start : Nat)
  | compare (m : Sample)
  | compareResult (sess reqId : Nat) (matched : Bool)
  | arbitrate (m : ArbMsg)
  | diverge (l : List DivEntry) (all : Bool)
  | join (digests : List (Nat × List Byte))
  | catchup (cs : List Commit) (full : Option Directory)
  | handback (second : Nat)
  | handover (items : List HandItem)
  | yielded
deriving DecidableEq, Repr

/-- A frame in an injector: one received from a host, a received PLP message, or one to be sent. -/
inductive DrillFrame where
  | host (f : Frame)
  | plp (p : Plp) (m : PlpMsg)
  | send (o : Out)
deriving DecidableEq, Repr

/-- A frame held for reordering (R776). -/
structure HeldFrame where
  frame : DrillFrame
  left : Nat
  since : Nat
deriving DecidableEq, Repr

/-- An injector; `drops`, `corrupts` and `others` count the injections of the millisecond `ms` that no Log record has
accounted for (R780). -/
structure Injector where
  armed : Bool := false
  held : List HeldFrame := []
  injected : Nat := 0
  lfsr : BitVec 32 := 0
  permit : Option Nat := none
  drops : Nat := 0
  corrupts : Nat := 0
  others : Nat := 0
  ms : Nat := 0
deriving DecidableEq, Repr

structure Drl where
  inj : Vector Injector 5 := Vector.replicate 5 {}
deriving DecidableEq, Repr

end Sys2Proof.Machine
end

