-- ==== Sys2Proof/Machine/State.lean ====
section
/-! DEFINITION. The whole state of the module, its reset value, and the reasons a step could stop. -/

namespace Sys2Proof.Machine

/-- The module: identity, every block, the control-space bits that software writes, and the model's own queue of
commands, free-value counter and list of outputs. -/
structure State where
  variant : Variant := .wx7480
  /-- temperature suffix E (true) or C -/
  suffixE : Bool := false
  serial : BitVec 128 := 0
  /-- pins SLOT_ID[4:0], a bit 1 where its contact is tied to ground (Table 21.5) -/
  slotId : BitVec 5 := 0
  pending : List Instr := []
  /-- free values drawn so far (log 13) -/
  free : Nat := 0
  out : List Out := []
  cores : Vector Core 64 := Vector.replicate 64 {}
  scratch : Vector Memory 8 := Vector.replicate 8 []
  pcache : Vector PCache 8 := Vector.replicate 8 {}
  cph : Vector SymEngine 16 := Vector.replicate 16 {}
  hsh : Vector SymEngine 16 := Vector.replicate 16 {}
  cvu : Vector SymEngine 9 := Vector.replicate 9 {}
  cvctx : Vector CvCtx 144 := Vector.replicate 144 {}
  bne : Pool 16 := {}
  lte : Pool 8 := {}
  dsp : Dsp := {}
  ins : List InstRt := []
  ksc : Ksc := {}
  mer : Mer := {}
  rng : Rng := {}
  net : Net := {}
  prl : Prl := {}
  mec : Mec := {}
  apu : Apu := {}
  bin : Bin := {}
  lcf : Lcf := {}
  dbg : Dbg := {}
  log : Log := {}
  pwr : Pwr := {}
  drl : Drl := {}
  smb : Smb := {}
  qrm : Qrm := {}
  /-- stored bits of control-space registers that differ from reset, by address -/
  regs : List (Nat × BitVec 32) := []
  /-- read shadow of each block, by block base (R760): the latched words above the first -/
  shadows : List (Nat × List (BitVec 32)) := []
  /-- stage of each writable pair, by address of its `_LO` register (R761) -/
  stages : List (Nat × BitVec 32) := []
  /-- WL fields written since the start, by address and low bit (R764) -/
  locked : List (Nat × Nat) := []
deriving DecidableEq, Repr

/-- Reasons for a stop by fault. No meaning raises one: every error the spec gives the module is a next state (log 1). -/
inductive Fault where
  /-- raised by no meaning; safe -/
  | none
deriving DecidableEq, Repr

/-- Reasons for a refusal. -/
inductive Refusal where
  /-- a command whose arm of `exec` has no meaning yet; safe: it only stops -/
  | notModelled (mnemonic : String)
deriving DecidableEq, Repr

/-- The machine right after reset (INVENTORY.md, State; logs 3, 4, 5, 10, 11, 13). -/
def State.reset : State := {}

end Sys2Proof.Machine
end

