-- ==== Sys2Proof/Machine/Bytes.lean ====
section
/-! DEFINITION. Byte strings, little-endian fields (R12) and the sparse memories. -/

namespace Sys2Proof.Machine

/-- Value of a little-endian byte string (R12). -/
def leNat : List Byte → Nat
  | [] => 0
  | b :: bs => b.toNat + 256 * leNat bs

/-- The `n` low bytes of a value, little-endian (R12). -/
def leBytes : Nat → Nat → List Byte
  | 0, _ => []
  | n + 1, v => BitVec.ofNat 8 v :: leBytes n (v / 256)

/-- Value of a big-endian byte string. -/
def beNat (bs : List Byte) : Nat := bs.foldl (fun acc b => acc * 256 + b.toNat) 0

/-- The `n` low bytes of a value, big-endian. -/
def beBytes (n v : Nat) : List Byte := (leBytes n v).reverse

/-- `n` zero bytes. -/
def zeros (n : Nat) : List Byte := List.replicate n 0

/-- Bytes `off` to `off + n - 1` of a string, zero beyond its end. -/
def slice (bs : List Byte) (off n : Nat) : List Byte :=
  let t := (bs.drop off).take n
  t ++ zeros (n - t.length)

/-- Little-endian field of a string. -/
def fieldAt (bs : List Byte) (off n : Nat) : Nat := leNat (slice bs off n)

/-- Bytewise XOR. -/
def xorBytes (a b : List Byte) : List Byte := a.zipWith (· ^^^ ·) b

/-- All bytes are zero. -/
def allZero (bs : List Byte) : Bool := bs.all (· == 0)

/-- Reserved bytes hold zero. -/
def rsvdOk (bs : List Byte) (off n : Nat) : Bool := allZero (slice bs off n)

/-- Value of a byte: its own where it is non-zero; an unlisted address reads as 0 (log 10). -/
def Mem.get : Memory → Nat → Byte
  | [], _ => 0
  | (k, v) :: m, a => if k = a then v else if a < k then 0 else Mem.get m a

/-- Store one byte, keeping the canonical form. -/
def Mem.set : Memory → Nat → Byte → Memory
  | [], a, b => if b = 0 then [] else [(a, b)]
  | (k, v) :: m, a, b =>
    if a < k then (if b = 0 then (k, v) :: m else (a, b) :: (k, v) :: m)
    else if a = k then (if b = 0 then m else (k, b) :: m)
    else (k, v) :: Mem.set m a b

/-- `n` bytes from address `a`. -/
def Mem.read (m : Memory) (a : Nat) : Nat → List Byte
  | 0 => []
  | n + 1 => Mem.get m a :: Mem.read m (a + 1) n

/-- Store a byte string at address `a`. -/
def Mem.write (m : Memory) (a : Nat) : List Byte → Memory
  | [] => m
  | b :: bs => Mem.write (Mem.set m a b) (a + 1) bs

/-- Bytes `c` and beyond become zero. -/
def Mem.keepBelow (m : Memory) (c : Nat) : Memory := m.filter (fun x => decide (x.1 < c))

/-- Addresses strictly above `lo`, rising, and no entry equal to zero. -/
def Mem.wfFrom : Nat → Memory → Bool
  | _, [] => true
  | lo, (k, v) :: m => decide (lo ≤ k) && v != 0 && Mem.wfFrom (k + 1) m

/-- The canonical form of a memory. -/
def Mem.wf (m : Memory) : Bool := Mem.wfFrom 0 m

/-- Ceiling division. -/
def ceilDiv (a b : Nat) : Nat := (a + b - 1) / b

/-- Saturating increment at `max`. -/
def satInc (max n : Nat) (by_ : Nat := 1) : Nat := min max (n + by_)

/-- Bit `i` of a number. -/
def bitOf (n i : Nat) : Bool := n / 2 ^ i % 2 == 1

/-- Bit of a truth value. -/
def b2n (b : Bool) : Nat := if b then 1 else 0

/-- Insert into an ascending list. -/
def insertAsc (n : Nat) : List Nat → List Nat
  | [] => [n]
  | m :: l => if n ≤ m then n :: m :: l else m :: insertAsc n l

/-- Ascending order. -/
def sortAsc : List Nat → List Nat
  | [] => []
  | n :: l => insertAsc n (sortAsc l)

/-! ### Association lists -/

/-- Value of a key. -/
def alGet {α β : Type} [DecidableEq α] : List (α × β) → α → Option β
  | [], _ => none
  | (k, v) :: l, a => if k = a then some v else alGet l a

/-- Set the value of a key. -/
def alSet {α β : Type} [DecidableEq α] : List (α × β) → α → β → List (α × β)
  | [], a, b => [(a, b)]
  | (k, v) :: l, a, b => if k = a then (k, b) :: l else (k, v) :: alSet l a b

/-- Remove a key. -/
def alDel {α β : Type} [DecidableEq α] (l : List (α × β)) (a : α) : List (α × β) :=
  l.filter (fun x => decide (x.1 ≠ a))

/-- Replace the entry at `n`. -/
def vset {α : Type} {n : Nat} (v : Vector α n) (i : Nat) (x : α) : Vector α n :=
  if h : i < n then v.set i x h else v

/-- Entry `n`, or a default beyond the end. -/
def vget {α : Type} {n : Nat} (v : Vector α n) (i : Nat) (d : α) : α :=
  if h : i < n then v[i] else d

/-! ### Frame headers (R551) -/

/-- The 40 bytes of a frame header (Table 14.2). -/
def hdrBytes (h : FrameHdr) : List Byte :=
  leBytes 1 (16 * h.ver + h.typ) ++ leBytes 1 h.flags ++ leBytes 2 h.rsvd ++ leBytes 4 h.sess ++ leBytes 8 h.seq
    ++ leBytes 8 h.cumAck ++ leBytes 4 h.sack ++ leBytes 2 h.rwnd ++ leBytes 2 h.plen ++ leBytes 8 h.stamp

/-- The header that 40 bytes spell. -/
def hdrOf (b : List Byte) : FrameHdr :=
  { ver := fieldAt b 0 1 / 16, typ := fieldAt b 0 1 % 16, flags := fieldAt b 1 1, rsvd := fieldAt b 2 2, sess := fieldAt b 4 4
    seq := fieldAt b 8 8, cumAck := fieldAt b 16 8, sack := fieldAt b 24 4, rwnd := fieldAt b 28 2, plen := fieldAt b 30 2
    stamp := fieldAt b 32 8 }

end Sys2Proof.Machine
end

