-- ==== Sys2Proof/Machine/Regs.lean ====
section
/-! DEFINITION. The register tables of the spec (access codes of Table 0.6, reset values) and the bits that software and
hardware store in control space. Reset values the tables give as fused, saved or derived are zero here: such fields are
computed where they are read. -/

namespace Sys2Proof.Machine

/-- Access codes (Table 0.6). -/
inductive Acc where
  | ro | rw | rwe | w1c | wo | wl | rl | rs
deriving DecidableEq, Repr

/-- A register field: bits `hi` to `lo`. -/
structure FieldDef where
  hi : Nat
  lo : Nat
  acc : Acc
  reset : Nat
deriving DecidableEq, Repr

/-- A register: offset in its window, fields. -/
structure RegDef where
  off : Nat
  fields : List FieldDef
deriving DecidableEq, Repr

/-- MOD registers. -/
def regsMod : List RegDef :=
  [⟨0x000, [⟨15, 0, .ro, 256⟩, ⟨31, 16, .ro, 0⟩]⟩,  -- MOD_ID
   ⟨0x004, [⟨0, 0, .rw, 0⟩]⟩,  -- MOD_CTRL
   ⟨0x008, [⟨0, 0, .w1c, 0⟩, ⟨1, 1, .w1c, 0⟩, ⟨2, 2, .ro, 0⟩]⟩,  -- MOD_STATUS
   ⟨0x00C, [⟨7, 0, .ro, 0⟩, ⟨15, 8, .ro, 0⟩, ⟨19, 16, .ro, 0⟩]⟩,  -- MOD_VARIANT
   ⟨0x010, [⟨31, 0, .ro, 0⟩]⟩,  -- MOD_OPTIME
   ⟨0x014, [⟨23, 0, .ro, 0⟩]⟩,  -- MOD_OPHOURS
   ⟨0x018, [⟨23, 0, .ro, 0⟩]⟩  -- MOD_PWRCYC
  ]

/-- MER registers. -/
def regsMer : List RegDef :=
  [⟨0x000, [⟨15, 0, .ro, 256⟩, ⟨31, 16, .ro, 1⟩]⟩,  -- MER_ID
   ⟨0x004, [⟨0, 0, .rw, 0⟩, ⟨1, 1, .rwe, 0⟩, ⟨2, 2, .rwe, 1⟩, ⟨3, 3, .rw, 1⟩]⟩,  -- MER_CTRL
   ⟨0x008, [⟨0, 0, .w1c, 0⟩, ⟨1, 1, .w1c, 0⟩, ⟨4, 2, .ro, 0⟩, ⟨5, 5, .ro, 0⟩, ⟨6, 6, .ro, 0⟩, ⟨7, 7, .ro, 0⟩, ⟨8, 8, .ro, 0⟩, ⟨9, 9, .w1c, 0⟩, ⟨10, 10, .ro, 0⟩]⟩,  -- MER_STATUS
   ⟨0x00C, [⟨2, 0, .rwe, 4⟩, ⟨4, 3, .rwe, 0⟩, ⟨11, 5, .rwe, 0⟩, ⟨23, 16, .rwe, 0⟩]⟩,  -- MER_SRC
   ⟨0x010, [⟨31, 0, .rl, 0⟩]⟩,  -- MER_TIME_LO
   ⟨0x014, [⟨31, 0, .rs, 0⟩]⟩,  -- MER_TIME_HI
   ⟨0x018, [⟨31, 0, .ro, 4294967295⟩]⟩,  -- MER_UNC
   ⟨0x01C, [⟨31, 0, .rwe, 1000000⟩]⟩,  -- MER_ADRIFT_LIMIT
   ⟨0x020, [⟨31, 0, .rwe, 250⟩]⟩,  -- MER_ASYM
   ⟨0x024, [⟨31, 0, .rwe, 40⟩]⟩,  -- MER_PPS_BOUND
   ⟨0x028, [⟨31, 0, .ro, 0⟩]⟩,  -- MER_OFFSET
   ⟨0x02C, [⟨31, 0, .ro, 0⟩]⟩,  -- MER_SLEW
   ⟨0x030, [⟨31, 0, .rl, 0⟩]⟩,  -- MER_STEP_LO
   ⟨0x034, [⟨31, 0, .rs, 0⟩]⟩  -- MER_STEP_HI
  ] ++ [
   ⟨0x038, [⟨31, 0, .rl, 0⟩]⟩,  -- MER_GM_LO
   ⟨0x03C, [⟨31, 0, .rs, 0⟩]⟩,  -- MER_GM_HI
   ⟨0x040, [⟨31, 0, .ro, 0⟩]⟩,  -- MER_PTP_REJ
   ⟨0x044, [⟨31, 0, .ro, 0⟩]⟩  -- MER_PPS_REJ
  ]

/-- DSP registers. -/
def regsDsp : List RegDef :=
  [⟨0x000, [⟨15, 0, .ro, 256⟩, ⟨31, 16, .ro, 2⟩]⟩,  -- DSP_ID
   ⟨0x004, [⟨0, 0, .rw, 0⟩, ⟨1, 1, .rw, 0⟩, ⟨2, 2, .rw, 0⟩, ⟨3, 3, .wo, 0⟩]⟩,  -- DSP_CTRL
   ⟨0x008, [⟨0, 0, .w1c, 0⟩, ⟨1, 1, .w1c, 0⟩, ⟨2, 2, .ro, 0⟩, ⟨3, 3, .ro, 0⟩, ⟨4, 4, .ro, 1⟩, ⟨5, 5, .ro, 0⟩, ⟨6, 6, .ro, 0⟩]⟩,  -- DSP_STATUS
   ⟨0x00C, [⟨15, 0, .rwe, 4096⟩]⟩,  -- DSP_CONFIG
   ⟨0x010, [⟨4, 0, .rw, 5⟩, ⟨12, 8, .rw, 5⟩, ⟨20, 16, .rw, 5⟩]⟩,  -- DSP_MIN_SHARE
   ⟨0x014, [⟨7, 0, .ro, 0⟩, ⟨15, 8, .ro, 0⟩, ⟨19, 16, .ro, 0⟩]⟩,  -- DSP_HOLD
   ⟨0x018, [⟨20, 0, .ro, 0⟩]⟩,  -- DSP_DELAY_USE
   ⟨0x01C, [⟨18, 0, .ro, 0⟩]⟩,  -- DSP_CONT_USE
   ⟨0x020, [⟨31, 0, .ro, 0⟩]⟩,  -- DSP_LAG
   ⟨0x024, [⟨11, 0, .rw, 0⟩, ⟨12, 12, .rw, 1⟩, ⟨19, 16, .rw, 15⟩]⟩,  -- DSP_TRACE_FILT
   ⟨0x028, [⟨15, 0, .rw, 511⟩]⟩,  -- DSP_TRACE_KINDS
   ⟨0x02C, [⟨15, 0, .ro, 0⟩, ⟨16, 16, .ro, 0⟩]⟩,  -- DSP_TRACE_WPTR
   ⟨0x030, [⟨31, 0, .ro, 0⟩]⟩,  -- DSP_TRACE_LOST
   ⟨0x034, [⟨15, 0, .rw, 0⟩]⟩  -- DSP_TRACE_IDX
  ] ++ [
   ⟨0x038, [⟨31, 0, .rl, 0⟩]⟩,  -- DSP_TRACE_D0
   ⟨0x03C, [⟨31, 0, .rs, 0⟩]⟩,  -- DSP_TRACE_D1
   ⟨0x040, [⟨31, 0, .rs, 0⟩]⟩,  -- DSP_TRACE_D2
   ⟨0x044, [⟨31, 0, .rs, 0⟩]⟩  -- DSP_TRACE_D3
  ]

/-- INS registers. -/
def regsIns : List RegDef :=
  [⟨0x000, [⟨15, 0, .ro, 256⟩, ⟨31, 16, .ro, 3⟩]⟩,  -- INS_ID
   ⟨0x004, [⟨0, 0, .rw, 0⟩]⟩,  -- INS_CTRL
   ⟨0x008, [⟨0, 0, .w1c, 0⟩, ⟨1, 1, .w1c, 0⟩, ⟨2, 2, .w1c, 0⟩, ⟨3, 3, .w1c, 0⟩]⟩,  -- INS_STATUS
   ⟨0x00C, [⟨11, 0, .wo, 0⟩, ⟨15, 12, .wo, 0⟩]⟩,  -- INS_CMD
   ⟨0x010, [⟨11, 0, .rw, 0⟩]⟩,  -- INS_SEL
   ⟨0x014, [⟨2, 0, .ro, 7⟩, ⟨3, 3, .ro, 0⟩, ⟨4, 4, .ro, 0⟩, ⟨20, 8, .ro, 0⟩, ⟨27, 24, .ro, 0⟩]⟩,  -- INS_STATE
   ⟨0x018, [⟨22, 0, .ro, 0⟩]⟩,  -- INS_OCC
   ⟨0x01C, [⟨15, 0, .ro, 0⟩, ⟨31, 16, .ro, 0⟩]⟩,  -- INS_FAULTS
   ⟨0x020, [⟨13, 0, .rw, 0⟩]⟩,  -- INS_QSEL
   ⟨0x024, [⟨16, 0, .ro, 0⟩, ⟨28, 17, .ro, 0⟩, ⟨29, 29, .ro, 0⟩]⟩,  -- INS_QOCC
   ⟨0x028, [⟨16, 0, .ro, 0⟩]⟩,  -- INS_QDEPTH
   ⟨0x02C, [⟨22, 0, .ro, 0⟩]⟩,  -- INS_TOTAL
   ⟨0x030, [⟨15, 0, .rwe, 1000⟩]⟩  -- INS_QUIESCE_LIMIT
  ]

/-- KSC registers. -/
def regsKsc : List RegDef :=
  [⟨0x000, [⟨15, 0, .ro, 256⟩, ⟨31, 16, .ro, 4⟩]⟩,  -- KSC_ID
   ⟨0x004, [⟨0, 0, .rw, 0⟩]⟩,  -- KSC_CTRL
   ⟨0x008, [⟨0, 0, .w1c, 0⟩, ⟨1, 1, .w1c, 0⟩, ⟨2, 2, .ro, 0⟩, ⟨3, 3, .ro, 0⟩, ⟨4, 4, .w1c, 0⟩, ⟨5, 5, .w1c, 0⟩]⟩,  -- KSC_STATUS
   ⟨0x00C, [⟨9, 0, .rwe, 500⟩]⟩,  -- KSC_REMASK
   ⟨0x010, [⟨15, 0, .ro, 0⟩]⟩,  -- KSC_REMASK_AGE
   ⟨0x014, [⟨19, 0, .ro, 0⟩]⟩,  -- KSC_CACHE_USE
   ⟨0x018, [⟨19, 0, .ro, 0⟩]⟩,  -- KSC_CACHE_PIN
   ⟨0x01C, [⟨27, 0, .ro, 0⟩]⟩,  -- KSC_RECORDS
   ⟨0x020, [⟨31, 0, .rl, 0⟩]⟩,  -- KSC_V_LO
   ⟨0x024, [⟨31, 0, .rs, 0⟩]⟩,  -- KSC_V_HI
   ⟨0x028, [⟨31, 0, .rl, 0⟩]⟩,  -- KSC_DUR_LO
   ⟨0x02C, [⟨31, 0, .rs, 0⟩]⟩,  -- KSC_DUR_HI
   ⟨0x030, [⟨23, 0, .ro, 0⟩]⟩,  -- KSC_SPARES
   ⟨0x034, [⟨23, 0, .ro, 0⟩]⟩  -- KSC_ERASE_BACKLOG
  ] ++ [
   ⟨0x038, [⟨15, 0, .ro, 0⟩]⟩,  -- KSC_PUF_ERR
   ⟨0x03C, [⟨31, 0, .ro, 0⟩]⟩  -- KSC_RES_WAIT
  ]

/-- CPH registers. -/
def regsCph : List RegDef :=
  [⟨0x000, [⟨15, 0, .ro, 256⟩, ⟨31, 16, .ro, 5⟩]⟩,  -- CPH_ID
   ⟨0x004, [⟨0, 0, .rw, 0⟩, ⟨1, 1, .wo, 0⟩]⟩,  -- CPH_CTRL
   ⟨0x008, [⟨0, 0, .w1c, 0⟩, ⟨1, 1, .w1c, 0⟩, ⟨2, 2, .ro, 0⟩, ⟨3, 3, .ro, 0⟩, ⟨4, 4, .w1c, 0⟩, ⟨5, 5, .ro, 0⟩, ⟨19, 16, .ro, 0⟩]⟩,  -- CPH_STATUS
   ⟨0x00C, [⟨5, 0, .ro, 0⟩, ⟨11, 6, .ro, 0⟩, ⟨12, 12, .ro, 0⟩]⟩,  -- CPH_QUEUE
   ⟨0x010, [⟨31, 0, .rl, 0⟩]⟩,  -- CPH_OPS_LO
   ⟨0x014, [⟨31, 0, .rs, 0⟩]⟩,  -- CPH_OPS_HI
   ⟨0x018, [⟨31, 0, .ro, 0⟩]⟩,  -- CPH_CHECKS
   ⟨0x01C, [⟨15, 0, .ro, 0⟩, ⟨31, 16, .ro, 0⟩]⟩  -- CPH_FAULTS
  ]

/-- BNE registers. -/
def regsBne : List RegDef :=
  [⟨0x000, [⟨15, 0, .ro, 256⟩, ⟨31, 16, .ro, 8⟩]⟩,  -- BNE_ID
   ⟨0x004, [⟨0, 0, .rw, 0⟩, ⟨1, 1, .wo, 0⟩]⟩,  -- BNE_CTRL
   ⟨0x008, [⟨0, 0, .w1c, 0⟩, ⟨1, 1, .w1c, 0⟩, ⟨2, 2, .ro, 0⟩, ⟨3, 3, .ro, 0⟩, ⟨4, 4, .w1c, 0⟩, ⟨5, 5, .ro, 0⟩, ⟨19, 16, .ro, 0⟩]⟩,  -- BNE_STATUS
   ⟨0x00C, [⟨6, 0, .rwe, 64⟩, ⟨19, 8, .ro, 128⟩]⟩,  -- BNE_SLOT
   ⟨0x010, [⟨3, 0, .ro, 0⟩, ⟨4, 4, .ro, 0⟩, ⟨27, 16, .ro, 0⟩]⟩,  -- BNE_JOBS
   ⟨0x014, [⟨0, 0, .ro, 0⟩, ⟨1, 1, .ro, 0⟩]⟩,  -- BNE_SETTINGS
   ⟨0x018, [⟨31, 0, .rl, 0⟩]⟩,  -- BNE_OPS_LO
   ⟨0x01C, [⟨31, 0, .rs, 0⟩]⟩,  -- BNE_OPS_HI
   ⟨0x020, [⟨15, 0, .ro, 0⟩, ⟨31, 16, .ro, 0⟩]⟩,  -- BNE_RESULTS
   ⟨0x024, [⟨15, 0, .ro, 0⟩, ⟨31, 16, .ro, 0⟩]⟩,  -- BNE_FAULTS
   ⟨0x028, [⟨12, 0, .ro, 0⟩]⟩  -- BNE_POOL
  ]

/-- LTE registers. -/
def regsLte : List RegDef :=
  [⟨0x000, [⟨15, 0, .ro, 256⟩, ⟨31, 16, .ro, 9⟩]⟩,  -- LTE_ID
   ⟨0x004, [⟨0, 0, .rw, 0⟩, ⟨1, 1, .wo, 0⟩, ⟨2, 2, .wo, 0⟩]⟩,  -- LTE_CTRL
   ⟨0x008, [⟨0, 0, .w1c, 0⟩, ⟨1, 1, .w1c, 0⟩, ⟨2, 2, .ro, 0⟩, ⟨3, 3, .ro, 0⟩, ⟨4, 4, .w1c, 0⟩, ⟨5, 5, .ro, 0⟩, ⟨19, 16, .ro, 0⟩]⟩,  -- LTE_STATUS
   ⟨0x00C, [⟨2, 0, .ro, 0⟩, ⟨3, 3, .ro, 0⟩, ⟨11, 8, .ro, 0⟩]⟩,  -- LTE_JOBS
   ⟨0x010, [⟨0, 0, .ro, 0⟩]⟩,  -- LTE_SETTINGS
   ⟨0x014, [⟨31, 0, .rl, 0⟩]⟩,  -- LTE_OPS_LO
   ⟨0x018, [⟨31, 0, .rs, 0⟩]⟩,  -- LTE_OPS_HI
   ⟨0x01C, [⟨15, 0, .ro, 0⟩, ⟨31, 16, .ro, 0⟩]⟩,  -- LTE_CACHE
   ⟨0x020, [⟨31, 0, .rl, 0⟩]⟩,  -- LTE_SIGNS_LO
   ⟨0x024, [⟨31, 0, .rs, 0⟩]⟩,  -- LTE_SIGNS_HI
   ⟨0x028, [⟨31, 0, .rl, 0⟩]⟩,  -- LTE_ITER_LO
   ⟨0x02C, [⟨31, 0, .rs, 0⟩]⟩,  -- LTE_ITER_HI
   ⟨0x030, [⟨9, 0, .ro, 0⟩]⟩,  -- LTE_ITER_MAX
   ⟨0x034, [⟨15, 0, .ro, 0⟩, ⟨31, 16, .ro, 0⟩]⟩  -- LTE_RESULTS
  ] ++ [
   ⟨0x038, [⟨15, 0, .ro, 0⟩, ⟨31, 16, .ro, 0⟩]⟩,  -- LTE_FAULTS
   ⟨0x03C, [⟨12, 0, .ro, 0⟩]⟩  -- LTE_POOL
  ]

/-- RNG registers. -/
def regsRng : List RegDef :=
  [⟨0x000, [⟨15, 0, .ro, 256⟩, ⟨31, 16, .ro, 10⟩]⟩,  -- RNG_ID
   ⟨0x004, [⟨0, 0, .wl, 0⟩, ⟨1, 1, .rw, 0⟩]⟩,  -- RNG_CTRL
   ⟨0x008, [⟨0, 0, .w1c, 0⟩, ⟨1, 1, .w1c, 0⟩, ⟨2, 2, .ro, 0⟩, ⟨3, 3, .ro, 0⟩, ⟨4, 4, .ro, 0⟩, ⟨5, 5, .w1c, 0⟩]⟩,  -- RNG_STATUS
   ⟨0x00C, [⟨2, 0, .ro, 0⟩, ⟨5, 3, .ro, 0⟩, ⟨8, 6, .ro, 0⟩, ⟨11, 9, .ro, 0⟩, ⟨23, 16, .ro, 0⟩]⟩,  -- RNG_SRC
   ⟨0x010, [⟨4, 0, .ro, 0⟩]⟩,  -- RNG_SEEDBUF
   ⟨0x014, [⟨3, 0, .rw, 0⟩]⟩,  -- RNG_DRBG_SEL
   ⟨0x018, [⟨1, 0, .ro, 0⟩, ⟨18, 2, .ro, 0⟩, ⟨31, 19, .ro, 0⟩]⟩,  -- RNG_DRBG
   ⟨0x01C, [⟨15, 0, .ro, 0⟩, ⟨31, 16, .ro, 0⟩]⟩,  -- RNG_HEALTH
   ⟨0x020, [⟨31, 0, .rl, 0⟩]⟩,  -- RNG_SEEDS_LO
   ⟨0x024, [⟨31, 0, .rs, 0⟩]⟩,  -- RNG_SEEDS_HI
   ⟨0x028, [⟨0, 0, .ro, 0⟩]⟩,  -- RNG_DATA_STAT
   ⟨0x02C, [⟨31, 0, .rl, 0⟩]⟩,  -- RNG_DATA_LO
   ⟨0x030, [⟨31, 0, .rs, 0⟩]⟩  -- RNG_DATA_HI
  ]

/-- HPT registers. -/
def regsHpt : List RegDef :=
  [⟨0x000, [⟨15, 0, .ro, 256⟩, ⟨31, 16, .ro, 11⟩]⟩,  -- HPT_ID
   ⟨0x004, [⟨0, 0, .rw, 0⟩, ⟨1, 1, .rwe, 0⟩, ⟨2, 2, .rwe, 0⟩, ⟨3, 3, .rwe, 1⟩, ⟨4, 4, .rwe, 0⟩, ⟨6, 5, .rwe, 1⟩]⟩,  -- HPT_CTRL
   ⟨0x008, [⟨0, 0, .w1c, 0⟩, ⟨1, 1, .w1c, 0⟩, ⟨2, 2, .ro, 0⟩, ⟨3, 3, .ro, 0⟩, ⟨4, 4, .w1c, 0⟩]⟩,  -- HPT_STATUS
   ⟨0x00C, [⟨15, 0, .rwe, 50171⟩, ⟨21, 16, .rwe, 46⟩, ⟨27, 22, .rwe, 0⟩]⟩,  -- HPT_UDP
   ⟨0x010, [⟨13, 0, .rwe, 1500⟩, ⟨21, 14, .rwe, 64⟩, ⟨27, 22, .rwe, 24⟩]⟩,  -- HPT_MTU
   ⟨0x014, [⟨2, 0, .rw, 0⟩]⟩,  -- HPT_VLAN_SEL
   ⟨0x018, [⟨11, 0, .rwe, 0⟩, ⟨12, 12, .rwe, 0⟩, ⟨15, 13, .rwe, 0⟩]⟩,  -- HPT_VLAN
   ⟨0x01C, [⟨31, 0, .rwe, 0⟩]⟩,  -- HPT_IP4
   ⟨0x020, [⟨31, 0, .rwe, 0⟩]⟩,  -- HPT_GW4
   ⟨0x024, [⟨31, 0, .rwe, 0⟩]⟩,  -- HPT_IP6_0
   ⟨0x028, [⟨31, 0, .rwe, 0⟩]⟩,  -- HPT_IP6_1
   ⟨0x02C, [⟨31, 0, .rwe, 0⟩]⟩,  -- HPT_IP6_2
   ⟨0x030, [⟨31, 0, .rwe, 0⟩]⟩,  -- HPT_IP6_3
   ⟨0x034, [⟨31, 0, .rwe, 0⟩]⟩  -- HPT_GW6_0
  ] ++ [
   ⟨0x038, [⟨31, 0, .rwe, 0⟩]⟩,  -- HPT_GW6_1
   ⟨0x03C, [⟨31, 0, .rwe, 0⟩]⟩,  -- HPT_GW6_2
   ⟨0x040, [⟨31, 0, .rwe, 0⟩]⟩,  -- HPT_GW6_3
   ⟨0x044, [⟨16, 0, .ro, 0⟩, ⟨31, 17, .ro, 0⟩]⟩,  -- HPT_SESSIONS
   ⟨0x048, [⟨15, 0, .ro, 0⟩, ⟨31, 16, .ro, 0⟩]⟩,  -- HPT_DROPS
   ⟨0x04C, [⟨31, 0, .ro, 0⟩]⟩,  -- HPT_AEAD
   ⟨0x050, [⟨15, 0, .ro, 0⟩, ⟨31, 16, .ro, 0⟩]⟩,  -- HPT_HELLO
   ⟨0x054, [⟨15, 0, .ro, 0⟩, ⟨31, 16, .ro, 0⟩]⟩,  -- HPT_BEACON
   ⟨0x058, [⟨31, 0, .rl, 0⟩]⟩,  -- HPT_TS_RX_LO
   ⟨0x05C, [⟨31, 0, .rs, 0⟩]⟩,  -- HPT_TS_RX_HI
   ⟨0x060, [⟨31, 0, .rl, 0⟩]⟩,  -- HPT_TS_TX_LO
   ⟨0x064, [⟨31, 0, .rs, 0⟩]⟩,  -- HPT_TS_TX_HI
   ⟨0x068, [⟨11, 0, .rwe, 30⟩, ⟨26, 16, .rwe, 256⟩]⟩,  -- HPT_CONV
   ⟨0x06C, [⟨15, 0, .rwe, 2000⟩, ⟨23, 16, .rwe, 20⟩]⟩  -- HPT_TIMING
  ] ++ [
   ⟨0x070, [⟨15, 0, .ro, 0⟩, ⟨31, 16, .ro, 0⟩]⟩,  -- HPT_DUPS
   ⟨0x074, [⟨31, 0, .ro, 0⟩]⟩,  -- HPT_RETX
   ⟨0x078, [⟨15, 0, .ro, 0⟩, ⟨31, 16, .ro, 0⟩]⟩,  -- HPT_REPLAY
   ⟨0x07C, [⟨15, 0, .ro, 0⟩, ⟨31, 16, .ro, 0⟩]⟩,  -- HPT_CLOSES
   ⟨0x080, [⟨15, 0, .ro, 0⟩, ⟨31, 16, .ro, 0⟩]⟩,  -- HPT_RESYNC
   ⟨0x084, [⟨20, 0, .ro, 0⟩, ⟨30, 21, .ro, 0⟩]⟩,  -- HPT_RETAIN_USE
   ⟨0x088, [⟨31, 0, .rwe, 0⟩]⟩,  -- HPT_UIP4
   ⟨0x08C, [⟨31, 0, .rwe, 0⟩]⟩,  -- HPT_UIP6_0
   ⟨0x090, [⟨31, 0, .rwe, 0⟩]⟩,  -- HPT_UIP6_1
   ⟨0x094, [⟨31, 0, .rwe, 0⟩]⟩,  -- HPT_UIP6_2
   ⟨0x098, [⟨31, 0, .rwe, 0⟩]⟩  -- HPT_UIP6_3
  ]

/-- PRL registers. -/
def regsPrl : List RegDef :=
  [⟨0x000, [⟨15, 0, .ro, 256⟩, ⟨31, 16, .ro, 12⟩]⟩,  -- PRL_ID
   ⟨0x004, [⟨0, 0, .rw, 0⟩, ⟨1, 1, .wo, 0⟩]⟩,  -- PRL_CTRL
   ⟨0x008, [⟨0, 0, .w1c, 0⟩, ⟨1, 1, .w1c, 0⟩, ⟨4, 2, .ro, 0⟩, ⟨5, 5, .ro, 0⟩, ⟨6, 6, .ro, 0⟩, ⟨7, 7, .ro, 0⟩, ⟨8, 8, .ro, 0⟩, ⟨9, 9, .ro, 0⟩, ⟨10, 10, .ro, 0⟩, ⟨11, 11, .ro, 0⟩, ⟨12, 12, .ro, 0⟩, ⟨13, 13, .ro, 0⟩, ⟨14, 14, .ro, 0⟩, ⟨15, 15, .w1c, 0⟩, ⟨20, 16, .ro, 0⟩, ⟨21, 21, .ro, 0⟩]⟩,  -- PRL_STATUS
   ⟨0x00C, [⟨15, 0, .ro, 0⟩, ⟨31, 16, .ro, 0⟩]⟩,  -- PRL_UNIT
   ⟨0x010, [⟨9, 0, .rwe, 60⟩]⟩,  -- PRL_TIMING
   ⟨0x014, [⟨3, 0, .rw, 0⟩, ⟨7, 4, .rw, 6⟩, ⟨11, 8, .rw, 6⟩, ⟨15, 12, .rw, 6⟩]⟩,  -- PRL_COVER
   ⟨0x018, [⟨31, 0, .ro, 0⟩]⟩,  -- PRL_CMP
   ⟨0x01C, [⟨15, 0, .ro, 0⟩, ⟨31, 16, .ro, 0⟩]⟩,  -- PRL_MISMATCH
   ⟨0x020, [⟨31, 0, .rl, 0⟩]⟩,  -- PRL_PEER_DUR_LO
   ⟨0x024, [⟨31, 0, .rs, 0⟩]⟩,  -- PRL_PEER_DUR_HI
   ⟨0x028, [⟨15, 0, .ro, 0⟩, ⟨31, 16, .ro, 0⟩]⟩,  -- PRL_LINK
   ⟨0x02C, [⟨31, 0, .ro, 0⟩]⟩,  -- PRL_RETX
   ⟨0x030, [⟨7, 0, .ro, 0⟩, ⟨15, 8, .ro, 0⟩, ⟨23, 16, .ro, 0⟩, ⟨31, 24, .ro, 0⟩]⟩  -- PRL_EVENTS
  ]

/-- MEC registers. -/
def regsMec : List RegDef :=
  [⟨0x000, [⟨15, 0, .ro, 256⟩, ⟨31, 16, .ro, 13⟩]⟩,  -- MEC_ID
   ⟨0x004, [⟨0, 0, .wl, 0⟩, ⟨12, 8, .rwe, 24⟩]⟩,  -- MEC_CTRL
   ⟨0x008, [⟨0, 0, .w1c, 0⟩, ⟨1, 1, .w1c, 0⟩, ⟨2, 2, .ro, 0⟩, ⟨5, 3, .ro, 0⟩, ⟨6, 6, .ro, 0⟩, ⟨7, 7, .ro, 0⟩, ⟨8, 8, .w1c, 0⟩, ⟨9, 9, .w1c, 0⟩, ⟨10, 10, .w1c, 0⟩]⟩,  -- MEC_STATUS
   ⟨0x00C, [⟨0, 0, .wo, 0⟩]⟩,  -- MEC_CMD
   ⟨0x010, [⟨15, 0, .ro, 0⟩]⟩,  -- MEC_MASTER
   ⟨0x014, [⟨31, 0, .ro, 0⟩]⟩,  -- MEC_AGE
   ⟨0x018, [⟨15, 0, .ro, 0⟩, ⟨29, 16, .ro, 0⟩, ⟨30, 30, .ro, 0⟩]⟩,  -- MEC_SWEEP
   ⟨0x01C, [⟨15, 0, .rw, 0⟩]⟩,  -- MEC_REGION_SEL
   ⟨0x020, [⟨2, 0, .ro, 0⟩, ⟨3, 3, .ro, 0⟩]⟩,  -- MEC_REGION
   ⟨0x024, [⟨31, 0, .rl, 0⟩]⟩,  -- MEC_GEN_LO
   ⟨0x028, [⟨7, 0, .rs, 0⟩]⟩,  -- MEC_GEN_HI
   ⟨0x02C, [⟨15, 0, .ro, 0⟩, ⟨31, 16, .ro, 0⟩]⟩,  -- MEC_ERRORS
   ⟨0x030, [⟨15, 0, .ro, 0⟩, ⟨23, 16, .ro, 0⟩]⟩,  -- MEC_REBUILDS
   ⟨0x034, [⟨23, 0, .ro, 0⟩, ⟨31, 24, .ro, 0⟩]⟩  -- MEC_REKEYS
  ]

/-- APU registers. -/
def regsApu : List RegDef :=
  [⟨0x000, [⟨15, 0, .ro, 256⟩, ⟨31, 16, .ro, 14⟩]⟩,  -- APU_ID
   ⟨0x004, [⟨0, 0, .wl, 0⟩, ⟨1, 1, .wl, 0⟩]⟩,  -- APU_CTRL
   ⟨0x008, [⟨0, 0, .w1c, 0⟩, ⟨1, 1, .w1c, 0⟩, ⟨2, 2, .ro, 0⟩, ⟨3, 3, .w1c, 0⟩, ⟨4, 4, .w1c, 0⟩]⟩,  -- APU_STATUS
   ⟨0x00C, [⟨6, 0, .rw, 0⟩, ⟨13, 8, .rw, 0⟩, ⟨14, 14, .rw, 0⟩]⟩,  -- APU_SEL
   ⟨0x010, [⟨31, 0, .rw, 0⟩]⟩,  -- APU_START_LO
   ⟨0x014, [⟨7, 0, .rw, 0⟩]⟩,  -- APU_START_HI
   ⟨0x018, [⟨31, 0, .rw, 31⟩]⟩,  -- APU_END_LO
   ⟨0x01C, [⟨7, 0, .rw, 0⟩]⟩,  -- APU_END_HI
   ⟨0x020, [⟨2, 0, .rw, 0⟩, ⟨5, 3, .rw, 0⟩, ⟨6, 6, .rw, 0⟩, ⟨7, 7, .rw, 0⟩, ⟨20, 8, .rw, 0⟩]⟩,  -- APU_ATTR
   ⟨0x024, [⟨0, 0, .wo, 0⟩]⟩,  -- APU_COMMIT
   ⟨0x028, [⟨15, 0, .ro, 0⟩]⟩,  -- APU_EPOCH
   ⟨0x02C, [⟨15, 0, .ro, 0⟩, ⟨31, 16, .ro, 0⟩]⟩,  -- APU_FAULTS
   ⟨0x030, [⟨6, 0, .ro, 0⟩, ⟨7, 7, .ro, 0⟩, ⟨9, 8, .ro, 0⟩]⟩  -- APU_LAST
  ]

/-- BIN registers. -/
def regsBin : List RegDef :=
  [⟨0x000, [⟨15, 0, .ro, 256⟩, ⟨31, 16, .ro, 15⟩]⟩,  -- BIN_ID
   ⟨0x004, [⟨0, 0, .rw, 0⟩]⟩,  -- BIN_CTRL
   ⟨0x008, [⟨0, 0, .w1c, 0⟩, ⟨1, 1, .w1c, 0⟩, ⟨4, 2, .ro, 0⟩, ⟨5, 5, .ro, 0⟩, ⟨6, 6, .ro, 0⟩, ⟨7, 7, .ro, 0⟩]⟩,  -- BIN_STATUS
   ⟨0x00C, [⟨28, 0, .ro, 0⟩]⟩,  -- BIN_ACTIVE
   ⟨0x010, [⟨28, 0, .w1c, 0⟩]⟩,  -- BIN_FIRED
   ⟨0x014, [⟨28, 0, .ro, 0⟩]⟩,  -- BIN_DISABLED
   ⟨0x018, [⟨4, 0, .rw, 0⟩]⟩,  -- BIN_SRC_SEL
   ⟨0x01C, [⟨2, 0, .rwe, 0⟩, ⟨6, 4, .ro, 0⟩, ⟨10, 8, .ro, 0⟩, ⟨31, 16, .ro, 0⟩]⟩,  -- BIN_SRC
   ⟨0x020, [⟨7, 0, .rwe, 255⟩, ⟨11, 8, .rwe, 2⟩, ⟨23, 16, .ro, 0⟩]⟩,  -- BIN_ETMP
   ⟨0x024, [⟨15, 0, .ro, 0⟩]⟩,  -- BIN_MESH
   ⟨0x028, [⟨11, 0, .ro, 0⟩, ⟨23, 16, .ro, 0⟩]⟩,  -- BIN_CELL
   ⟨0x02C, [⟨31, 0, .rl, 0⟩]⟩,  -- BIN_RTC_LO
   ⟨0x030, [⟨31, 0, .rs, 0⟩]⟩,  -- BIN_RTC_HI
   ⟨0x034, [⟨3, 0, .ro, 0⟩, ⟨31, 16, .ro, 0⟩]⟩  -- BIN_PEND
  ] ++ [
   ⟨0x038, [⟨11, 0, .ro, 0⟩, ⟨27, 16, .ro, 0⟩]⟩,  -- BIN_EVID
   ⟨0x03C, [⟨10, 0, .rw, 0⟩]⟩,  -- BIN_EVID_IDX
   ⟨0x040, [⟨31, 0, .rl, 0⟩]⟩,  -- BIN_EVID_D0
   ⟨0x044, [⟨31, 0, .rs, 0⟩]⟩,  -- BIN_EVID_D1
   ⟨0x048, [⟨31, 0, .rs, 0⟩]⟩,  -- BIN_EVID_D2
   ⟨0x04C, [⟨31, 0, .rs, 0⟩]⟩,  -- BIN_EVID_D3
   ⟨0x050, [⟨31, 0, .rs, 0⟩]⟩,  -- BIN_EVID_D4
   ⟨0x054, [⟨31, 0, .rs, 0⟩]⟩,  -- BIN_EVID_D5
   ⟨0x058, [⟨31, 0, .rs, 0⟩]⟩,  -- BIN_EVID_D6
   ⟨0x05C, [⟨31, 0, .rs, 0⟩]⟩,  -- BIN_EVID_D7
   ⟨0x060, [⟨15, 0, .ro, 0⟩, ⟨31, 16, .ro, 0⟩]⟩  -- BIN_LOST
  ]

/-- LCF registers. -/
def regsLcf : List RegDef :=
  [⟨0x000, [⟨15, 0, .ro, 256⟩, ⟨31, 16, .ro, 16⟩]⟩,  -- LCF_ID
   ⟨0x004, [⟨0, 0, .rw, 0⟩]⟩,  -- LCF_CTRL
   ⟨0x008, [⟨0, 0, .w1c, 0⟩, ⟨1, 1, .w1c, 0⟩, ⟨4, 2, .ro, 0⟩, ⟨9, 5, .ro, 0⟩, ⟨10, 10, .ro, 0⟩, ⟨11, 11, .ro, 0⟩, ⟨12, 12, .w1c, 0⟩]⟩,  -- LCF_STATUS
   ⟨0x00C, [⟨3, 0, .ro, 0⟩, ⟨4, 4, .ro, 0⟩, ⟨31, 16, .ro, 0⟩]⟩,  -- LCF_STAGE
   ⟨0x010, [⟨4, 0, .ro, 0⟩, ⟨11, 8, .ro, 0⟩, ⟨15, 12, .ro, 0⟩]⟩,  -- LCF_PROGRESS
   ⟨0x014, [⟨7, 0, .ro, 0⟩, ⟨15, 8, .ro, 0⟩]⟩,  -- LCF_TOKENS
   ⟨0x018, [⟨6, 0, .ro, 0⟩, ⟨7, 7, .ro, 0⟩]⟩,  -- LCF_ROLLBACK
   ⟨0x01C, [⟨28, 0, .wo, 0⟩]⟩,  -- LCF_SRC_DISABLE
   ⟨0x020, [⟨31, 0, .ro, 0⟩]⟩,  -- LCF_CHAL_CNT
   ⟨0x024, [⟨31, 0, .ro, 0⟩]⟩,  -- LCF_SERIAL0
   ⟨0x028, [⟨31, 0, .ro, 0⟩]⟩,  -- LCF_SERIAL1
   ⟨0x02C, [⟨31, 0, .ro, 0⟩]⟩,  -- LCF_SERIAL2
   ⟨0x030, [⟨31, 0, .ro, 0⟩]⟩  -- LCF_SERIAL3
  ]

/-- LOG registers. -/
def regsLog : List RegDef :=
  [⟨0x000, [⟨15, 0, .ro, 256⟩, ⟨31, 16, .ro, 17⟩]⟩,  -- LOG_ID
   ⟨0x004, [⟨0, 0, .rw, 0⟩, ⟨1, 1, .rw, 0⟩]⟩,  -- LOG_CTRL
   ⟨0x008, [⟨0, 0, .w1c, 0⟩, ⟨1, 1, .w1c, 0⟩, ⟨2, 2, .ro, 0⟩, ⟨3, 3, .w1c, 0⟩, ⟨4, 4, .ro, 0⟩]⟩,  -- LOG_STATUS
   ⟨0x00C, [⟨15, 0, .ro, 0⟩, ⟨31, 16, .ro, 0⟩]⟩,  -- LOG_RING
   ⟨0x010, [⟨23, 0, .ro, 0⟩]⟩,  -- LOG_NAND
   ⟨0x014, [⟨15, 0, .ro, 0⟩, ⟨23, 16, .ro, 0⟩, ⟨31, 24, .ro, 0⟩]⟩,  -- LOG_MISSED
   ⟨0x018, [⟨23, 0, .rw, 0⟩, ⟨24, 24, .rw, 0⟩]⟩,  -- LOG_SEL
   ⟨0x01C, [⟨31, 0, .rl, 0⟩]⟩,  -- LOG_D0
   ⟨0x020, [⟨31, 0, .rs, 0⟩]⟩,  -- LOG_D1
   ⟨0x024, [⟨31, 0, .rs, 0⟩]⟩,  -- LOG_D2
   ⟨0x028, [⟨31, 0, .rs, 0⟩]⟩,  -- LOG_D3
   ⟨0x02C, [⟨31, 0, .rs, 0⟩]⟩,  -- LOG_D4
   ⟨0x030, [⟨31, 0, .rs, 0⟩]⟩,  -- LOG_D5
   ⟨0x034, [⟨31, 0, .rs, 0⟩]⟩  -- LOG_D6
  ] ++ [
   ⟨0x038, [⟨31, 0, .rs, 0⟩]⟩  -- LOG_D7
  ]

/-- TRB registers. -/
def regsTrb : List RegDef :=
  [⟨0x800, [⟨11, 0, .rw, 0⟩, ⟨12, 12, .rw, 1⟩, ⟨21, 16, .rw, 0⟩]⟩,  -- TRB_SEL
   ⟨0x804, [⟨31, 0, .rw, 0⟩]⟩  -- TRB_DATA
  ]

/-- PWR registers. -/
def regsPwr : List RegDef :=
  [⟨0x000, [⟨15, 0, .ro, 256⟩, ⟨31, 16, .ro, 18⟩]⟩,  -- PWR_ID
   ⟨0x004, [⟨0, 0, .rw, 0⟩]⟩,  -- PWR_CTRL
   ⟨0x008, [⟨0, 0, .w1c, 0⟩, ⟨1, 1, .w1c, 0⟩, ⟨3, 2, .ro, 0⟩, ⟨5, 4, .ro, 0⟩, ⟨6, 6, .ro, 0⟩, ⟨7, 7, .ro, 0⟩, ⟨8, 8, .ro, 0⟩]⟩,  -- PWR_STATUS
   ⟨0x00C, [⟨0, 0, .ro, 0⟩, ⟨2, 1, .ro, 0⟩]⟩,  -- PWR_OPTIONS
   ⟨0x010, [⟨31, 0, .rl, 0⟩]⟩,  -- PWR_SWITCH_LO
   ⟨0x014, [⟨31, 0, .rs, 0⟩]⟩,  -- PWR_SWITCH_HI
   ⟨0x018, [⟨15, 0, .ro, 0⟩, ⟨31, 16, .ro, 1100⟩]⟩,  -- PWR_POWER
   ⟨0x01C, [⟨31, 0, .rl, 0⟩]⟩,  -- PWR_DOM_LO
   ⟨0x020, [⟨31, 0, .rs, 0⟩]⟩,  -- PWR_DOM_HI
   ⟨0x024, [⟨31, 0, .ro, 0⟩]⟩  -- PWR_LIMIT
  ]

/-- QRM registers. -/
def regsQrm : List RegDef :=
  [⟨0x000, [⟨15, 0, .ro, 256⟩, ⟨31, 16, .ro, 19⟩]⟩,  -- QRM_ID
   ⟨0x004, [⟨0, 0, .rw, 0⟩]⟩,  -- QRM_CTRL
   ⟨0x008, [⟨0, 0, .w1c, 0⟩, ⟨1, 1, .w1c, 0⟩, ⟨2, 2, .w1c, 0⟩, ⟨3, 3, .ro, 0⟩]⟩,  -- QRM_STATUS
   ⟨0x00C, [⟨11, 0, .rwe, 300⟩]⟩,  -- QRM_WINDOW
   ⟨0x010, [⟨6, 0, .rwe, 5⟩]⟩,  -- QRM_ABUSE
   ⟨0x014, [⟨15, 0, .ro, 0⟩, ⟨31, 16, .ro, 0⟩]⟩,  -- QRM_FAILS
   ⟨0x018, [⟨31, 0, .ro, 0⟩]⟩,  -- QRM_OFFICERS
   ⟨0x01C, [⟨12, 0, .rw, 0⟩, ⟨19, 16, .rw, 1⟩]⟩,  -- QRM_CER_SEL
   ⟨0x020, [⟨2, 0, .ro, 0⟩, ⟨13, 8, .ro, 0⟩, ⟨15, 14, .ro, 0⟩, ⟨19, 16, .ro, 0⟩]⟩,  -- QRM_CER_STATE
   ⟨0x024, [⟨31, 0, .ro, 0⟩]⟩,  -- QRM_CER_NUM
   ⟨0x028, [⟨31, 0, .rl, 0⟩]⟩,  -- QRM_CER_CLOSE_LO
   ⟨0x02C, [⟨31, 0, .rs, 0⟩]⟩  -- QRM_CER_CLOSE_HI
  ]

/-- DRL registers. -/
def regsDrl : List RegDef :=
  [⟨0x000, [⟨15, 0, .ro, 256⟩, ⟨31, 16, .ro, 20⟩]⟩,  -- DRL_ID
   ⟨0x004, [⟨0, 0, .rw, 0⟩]⟩,  -- DRL_CTRL
   ⟨0x008, [⟨0, 0, .w1c, 0⟩, ⟨1, 1, .w1c, 0⟩, ⟨2, 2, .w1c, 0⟩, ⟨7, 3, .ro, 0⟩, ⟨12, 8, .ro, 0⟩]⟩,  -- DRL_STATUS
   ⟨0x00C, [⟨2, 0, .rw, 0⟩]⟩,  -- DRL_SEL
   ⟨0x010, [⟨0, 0, .rw, 0⟩, ⟨1, 1, .rwe, 0⟩, ⟨3, 2, .rwe, 0⟩, ⟨4, 4, .rwe, 0⟩, ⟨5, 5, .rwe, 0⟩, ⟨10, 6, .rwe, 16⟩, ⟨14, 11, .rwe, 1⟩]⟩,  -- DRL_MODE
   ⟨0x014, [⟨31, 0, .rwe, 0⟩]⟩,  -- DRL_SESSION
   ⟨0x018, [⟨15, 0, .rw, 0⟩]⟩,  -- DRL_COUNT
   ⟨0x01C, [⟨31, 0, .ro, 0⟩]⟩,  -- DRL_INJECTED
   ⟨0x020, [⟨31, 0, .rl, 0⟩]⟩,  -- DRL_PERMIT_LO
   ⟨0x024, [⟨31, 0, .rs, 0⟩]⟩  -- DRL_PERMIT_HI
  ]

/-- DBG registers. -/
def regsDbg : List RegDef :=
  [⟨0x000, [⟨15, 0, .ro, 256⟩, ⟨31, 16, .ro, 21⟩]⟩,  -- DBG_ID
   ⟨0x004, [⟨0, 0, .rw, 0⟩, ⟨1, 1, .wo, 0⟩]⟩,  -- DBG_CTRL
   ⟨0x008, [⟨0, 0, .w1c, 0⟩, ⟨1, 1, .w1c, 0⟩, ⟨3, 2, .ro, 0⟩, ⟨4, 4, .w1c, 0⟩, ⟨5, 5, .ro, 0⟩, ⟨6, 6, .ro, 0⟩]⟩,  -- DBG_STATUS
   ⟨0x00C, [⟨15, 0, .ro, 0⟩, ⟨31, 16, .ro, 0⟩]⟩  -- DBG_COUNT
  ]

/-- The registers of another kind of engine: its own `block_id`, and the rest as in Table 10.5 (R473). -/
def symIds (id : Nat) (l : List RegDef) : List RegDef :=
  l.map fun r => if r.off = 0 then { r with fields := r.fields.map fun f => if f.lo = 16 then { f with reset := id } else f } else r

/-- HSH (Table 10.5). -/
def regsHsh : List RegDef := symIds 6 regsCph

/-- The HSH and CVU counterparts have the fields of the CPH registers (R473); CVU has no check-failure register. -/
def regsCvu : List RegDef := symIds 7 (regsCph.filter fun r => r.off ≠ 0x018)

/-- Registers of a block, by its number in the control-space map (Table 20.1). -/
def blockRegs : Nat → List RegDef
  | 0 => regsMod | 1 => regsMer | 2 => regsDsp | 3 => regsIns | 4 => regsKsc | 5 => regsCph | 6 => regsHsh
  | 7 => regsCvu | 8 => regsBne | 9 => regsLte | 10 => regsRng | 11 => regsHpt | 12 => regsPrl | 13 => regsMec
  | 14 => regsApu | 15 => regsBin | 16 => regsLcf | 17 => regsLog ++ regsTrb | 18 => regsPwr | 19 => regsQrm
  | 20 => regsDrl | 21 => regsDbg | _ => []

/-- Size of one unit's window in a block (Table 20.1). -/
def windowSize (blk : Nat) : Nat :=
  if 5 ≤ blk ∧ blk ≤ 9 then 0x1000 else if blk = 11 then 0x4000 else 0x10000

/-- Units present in a block of this variant (Table 20.1, R5). -/
def unitPresent (v : Variant) (blk unit : Nat) : Bool :=
  match blk with
  | 5 | 6 => decide (unit < v.symEngines)
  | 7 => decide (unit < v.crews) || unit == 8
  | 8 => decide (unit < v.bneEngines)
  | 9 => decide (unit < v.lteEngines)
  | 11 => decide (unit < v.hostPorts)
  | _ => unit == 0

/-- Block, unit and offset of a control-space address. -/
def regPlace (addr : Nat) : Nat × Nat × Nat :=
  let blk := addr / 0x10000
  let w := windowSize blk
  (blk, addr % 0x10000 / w, addr % w)

/-- Definition of the register at an address; none for an offset the map does not list (R762). -/
def regDef (addr : Nat) : Option RegDef :=
  let (blk, _, off) := regPlace addr
  (blockRegs blk).find? (fun r => r.off == off)

/-- Reset value of a register's stored bits. -/
def RegDef.resetVal (r : RegDef) : BitVec 32 :=
  BitVec.ofNat 32 (r.fields.foldl (fun n f => n + f.reset * 2 ^ f.lo) 0)

/-- Bits stored for the register at an address. -/
def stored (s : State) (addr : Nat) : BitVec 32 :=
  match alGet s.regs addr with
  | some v => v
  | none => match regDef addr with
    | some r => r.resetVal
    | none => 0

/-- Store the bits of a register. -/
def store (s : State) (addr : Nat) (v : BitVec 32) : State := { s with regs := alSet s.regs addr v }

/-- Field of `n` bits at bit `lo` of the stored bits. -/
def fld (s : State) (addr lo n : Nat) : Nat := (stored s addr).toNat / 2 ^ lo % 2 ^ n

/-- Bit of the stored bits. -/
def rbit (s : State) (addr i : Nat) : Bool := (stored s addr).getLsbD i

/-- Replace `n` bits at bit `lo`. -/
def insertBits (w : BitVec 32) (lo n v : Nat) : BitVec 32 :=
  let old := w.toNat / 2 ^ lo % 2 ^ n
  BitVec.ofNat 32 (w.toNat - old * 2 ^ lo + v % 2 ^ n * 2 ^ lo)

/-- Hardware sets a field. -/
def setFld (s : State) (addr lo n v : Nat) : State := store s addr (insertBits (stored s addr) lo n v)

/-- Hardware sets a bit (R765). -/
def setBit (s : State) (addr i : Nat) (b : Bool := true) : State := setFld s addr i 1 (b2n b)

/-- Cox sets a WL bit, which takes no later write in this start (R764). -/
def setWl (s : State) (addr i : Nat) : State :=
  setBit { s with locked := if s.locked.contains (addr, i) then s.locked else s.locked ++ [(addr, i)] } addr i

/-- Window base of unit `u` of block `blk`. -/
def winBase (blk u : Nat) : Nat := blk * 0x10000 + u * windowSize blk

/-- The `en` bit of unit `u` of block `blk`: bit 0 of the register at offset 4 of its window. -/
def blockEn (s : State) (blk u : Nat) : Bool := rbit s (winBase blk u + 4) 0

end Sys2Proof.Machine
end

