-- ==== Sys2Proof/Machine/Status.lean ====
section
/-! DEFINITION. The 16-bit status codes (Tables 0.7, 3.10, 5.10, 6.2, 8.6 and 15.9). -/

namespace Sys2Proof.St

abbrev ok : Nat := 0x0000
abbrev okSingle : Nat := 0x0001
abbrev badFormat : Nat := 0x0101
abbrev replayed : Nat := 0x0102
abbrev idConflict : Nat := 0x0103
abbrev unknownQueue : Nat := 0x0104
abbrev notAuthorised : Nat := 0x0105
abbrev sessionExpired : Nat := 0x0106
abbrev retainFull : Nat := 0x0107
abbrev keyNotFound : Nat := 0x0201
abbrev keyPolicy : Nat := 0x0202
abbrev keyEngineMismatch : Nat := 0x0203
abbrev keySpent : Nat := 0x0204
abbrev keyOutsideWindow : Nat := 0x0205
abbrev quorumRequired : Nat := 0x0206
abbrev storeReadonly : Nat := 0x0207
abbrev keyCacheFull : Nat := 0x0208
abbrev storeFull : Nat := 0x0209
abbrev authFail : Nat := 0x0301
abbrev pkInputRange : Nat := 0x0302
abbrev pkGeneric : Nat := 0x0303
abbrev pkInvariant : Nat := 0x0304
abbrev engineAborted : Nat := 0x0305
abbrev rngUnavailable : Nat := 0x0306
abbrev ticketUnknown : Nat := 0x0307
abbrev paramInvalid : Nat := 0x0308
abbrev noHandle : Nat := 0x0309
abbrev pinFormat : Nat := 0x030A
abbrev poolFull : Nat := 0x030B
abbrev journalState : Nat := 0x030C
abbrev journalLimit : Nat := 0x030D
abbrev commitConflict : Nat := 0x030E
abbrev qfull : Nat := 0x0401
abbrev shareLimit : Nat := 0x0402
abbrev deadlineMissed : Nat := 0x0403
abbrev instanceReset : Nat := 0x0404
abbrev instanceFaulted : Nat := 0x0405
abbrev holdWater : Nat := 0x0406
abbrev delayFull : Nat := 0x0407
abbrev contFull : Nat := 0x0408
abbrev paused : Nat := 0x0409
abbrev divergent : Nat := 0x040A
abbrev reservationLimit : Nat := 0x040B
abbrev memIntegrity : Nat := 0x0501
abbrev tamperLock : Nat := 0x0502
abbrev strokeBudget : Nat := 0x0601
abbrev accessFault : Nat := 0x0602
abbrev illegalInstr : Nat := 0x0603
abbrev windowBounds : Nat := 0x0604
abbrev callDepth : Nat := 0x0605
abbrev imageRejected : Nat := 0x0606
abbrev programStoreFull : Nat := 0x0607
abbrev imageInUse : Nat := 0x0608

end Sys2Proof.St
end

