-- ==== Sys2Proof/Machine/Base.lean ====
section
/-! DEFINITION. What every block uses: outputs, free values, trouble counters (R773), the Log (R766-R772) and the
alarm-independent parts of the module's condition. -/

namespace Sys2Proof.Machine

/-- Append to what left the module (log 11). -/
def emit (s : State) (o : Out) : State := { s with out := s.out ++ [o] }

/-- `n` bytes that nothing in the module fixes, and the state with the counter advanced (log 13). -/
def draw (s : State) (n : Nat) : List Byte × State := (freeBytes s.free n, { s with free := s.free + 1 })

/-- Advance an instance counter and the module counter of a cause (R773). -/
def trouble (s : State) (inst cause : Nat) : State :=
  { s with log := { s.log with
      trbInst := if cause < 32 then
          alSet s.log.trbInst (inst, cause) (satInc 0xFFFF ((alGet s.log.trbInst (inst, cause)).getD 0))
        else s.log.trbInst
      trbMod := alSet s.log.trbMod cause (satInc 0xFFFFFFFF ((alGet s.log.trbMod cause).getD 0)) } }

/-- Advance a module counter alone (R773). -/
def troubleMod (s : State) (cause : Nat) : State :=
  { s with log := { s.log with
      trbMod := alSet s.log.trbMod cause (satInc 0xFFFFFFFF ((alGet s.log.trbMod cause).getD 0)) } }

/-- Cause number of a status (Table 20.5). -/
def causeOf (status : Nat) : Option Nat :=
  if status = St.strokeBudget then some 0 else if status = St.accessFault then some 1
  else if status = St.illegalInstr then some 2 else if status = St.windowBounds then some 3
  else if status = St.callDepth then some 4 else if status = St.qfull then some 5
  else if status = St.shareLimit then some 6 else if status = St.deadlineMissed then some 7
  else if status = St.instanceReset then some 8 else if status = St.instanceFaulted then some 9
  else if status = St.unknownQueue then some 10 else if status = St.notAuthorised then some 11
  else if status = St.divergent then some 12 else if status = St.memIntegrity then some 13
  else if status = St.contFull then some 14 else if status = St.poolFull then some 17
  else if status = St.keyCacheFull then some 18 else if status = St.retainFull then some 19
  else if status = St.idConflict then some 20 else if status = St.badFormat then some 21
  else if status = St.delayFull then some 22 else if status = St.engineAborted then some 23
  else if status = St.rngUnavailable then some 24 else if status = St.commitConflict then some 25
  else if status = St.holdWater then some 32 else if status = St.paused then some 33
  else if status = St.tamperLock then some 34 else none

/-- Count a status against an instance, or against the module alone for causes 32 and above (Table 20.5). -/
def countStatus (s : State) (inst : Option Nat) (status : Nat) : State :=
  match causeOf status, inst with
  | some c, some i => if c < 32 then trouble s i c else troubleMod s c
  | some c, none => troubleMod s c
  | none, _ => s

/-- Ticks in a millisecond and in a second (R11). -/
def tickMs : Nat := 16000
def tickS : Nat := 16000000

/-- Elapsed Meridian time in ticks. -/
def now (s : State) : Nat := s.mer.elapsed

/-- A draw that was asked for at tick `t` has waited its 100 µs (Table 13.3). -/
def drawLate (s : State) (t : Nat) : Bool := decide (t + 1600 ≤ now s)

/-- Value held within a range, ends included. -/
def clamp (lo hi n : Nat) : Nat := max lo (min hi n)

/-! ### The Log -/

/-- Records in the ring (R768). -/
def ringSize : Nat := 65536

/-- Append a record to the ring; discarded where no slot is free (R768). -/
def ringAppend (s : State) (r : LogRec) : State :=
  if ringSize ≤ s.log.undrained then troubleMod s 42
  else { s with log := { s.log with
      ring := alSet s.log.ring s.log.wptr { r with rseq := s.log.rseq }
      wptr := (s.log.wptr + 1) % ringSize
      undrained := s.log.undrained + 1
      rseq := (s.log.rseq + 1) % 65536 } }

/-- Write a Log record (R766, R770). `target` is an instance where `isInst`. -/
def logFull (s : State) (event source sev : Nat) (isInst : Bool) (target : Nat) (params : List Nat)
    (evid : Bool := false) : State :=
  let r : LogRec :=
    { event := event, source := source, sev := sev, flags := b2n isInst + 4 * b2n evid, optime := s.log.optime,
      cycles := s.bin.cycles, target := target, params := params }
  match s.log.frozen with
  | none => ringAppend s r
  | some _ =>
    if 4 ≤ sev then
      if s.log.side.length < 256 then { s with log := { s.log with side := s.log.side ++ [r] } }
      else { s with log := { s.log with sideLost := satInc 255 s.log.sideLost } }
    else { s with log := { s.log with missed := satInc 65535 s.log.missed } }

/-- A record without target. -/
def logEvent (s : State) (event source sev : Nat) (params : List Nat := []) : State :=
  logFull s event source sev false 0 params

/-- A record whose event code and severity no table gives (log 17). -/
def logOpen (s : State) (block place : Nat) (params : List Nat := []) : State :=
  let e := Config.logEvent block place
  logFull s e.1 block e.2 false 0 params

/-- End of a freeze (R771). -/
def logThaw (s : State) : State :=
  let side := s.log.side
  let missed := s.log.missed
  let s := { s with log := { s.log with frozen := none, side := [], missed := 0, sideLost := 0 } }
  let s := side.foldl (fun s r => ringAppend s { r with flags := r.flags + 2 }) s
  let s := if missed = 0 then s else logEvent s 0x1101 0x11 1 [missed]
  setFld s 0x00110004 1 1 0

/-! ### Cores -/

/-- Core `c`. -/
def State.core (s : State) (c : CoreId) : Core := s.cores.get c

/-- Replace core `c`. -/
def State.setCore (s : State) (c : CoreId) (x : Core) : State := { s with cores := s.cores.set c.val x c.isLt }

/-- Change the item on core `c`. -/
def modItem (s : State) (c : CoreId) (f : Item → Item) : State :=
  let k := s.core c
  s.setCore c { k with item := k.item.map f }

/-- Crew of a core (R41). -/
def crewOf (c : CoreId) : Nat := c.val / 8

/-- General register; g0 reads as zero (03). -/
def Ctx.rg (x : Ctx) (r : GReg) : Word := if r = 0 then 0 else x.g.get r

/-- Write a general register; a write to g0 is discarded (03). -/
def Ctx.wg (x : Ctx) (r : GReg) (v : Word) : Ctx := if r = 0 then x else { x with g := x.g.set r.val v r.isLt }

/-- Handle register. -/
def Ctx.rk (x : Ctx) (r : KReg) : Option KeyRec := x.k.get r

/-- Write a handle register. -/
def Ctx.wk (x : Ctx) (r : KReg) (v : Option KeyRec) : Ctx := { x with k := x.k.set r.val v r.isLt }

/-- Change the register state of core `c`. -/
def modCtx (s : State) (c : CoreId) (f : Ctx → Ctx) : State :=
  let k := s.core c
  s.setCore c { k with ctx := f k.ctx }

end Sys2Proof.Machine
end

