-- ==== Sys2Proof/Machine/Config.lean ====
section
/-! DEFINITION. Committed state: what each record changes, the state as of a CSN (R54), and the entries that commits
conflict on (R51, R818). -/

namespace Sys2Proof.Machine

/-- Effect of one configuration, program, quorum or profile record (Tables 7.2, 9.3, 9.5, R782). -/
def Cfg.applyConf (c : Cfg) : ConfRec → Cfg
  | .domainCreate d => { c with domains := c.domains ++ [d] }
  | .domainDelete d =>
    { c with
      domains := c.domains.filter (· != d)
      keys := c.keys.filter (fun k => k.name.dom != d)
      images := c.images.filter (fun x => x.1.1 != d)
      officers := alDel c.officers d
      policies := alDel c.policies d
      settings := alDel c.settings d
      usages := c.usages.filter (fun x => x.1.1 != d)
      floors := c.floors.filter (fun x => x.1.1 != d) }
  | .instCreate i d sh => { c with insts := alSet c.insts i { dom := d, enabled := false, share := sh } }
  | .instDelete i => { c with insts := alDel c.insts i }
  | .adminState i e => match alGet c.insts i with
    | some x => { c with insts := alSet c.insts i { x with enabled := e } }
    | none => c
  | .shareChange i sh => match alGet c.insts i with
    | some x => { c with insts := alSet c.insts i { x with share := sh } }
    | none => c
  | .queueConfigure q b => { c with queues := alSet c.queues q b }
  | .queueRemove q => { c with queues := alDel c.queues q, binds := alDel c.binds q }
  | .officerSet d l => { c with officers := alSet c.officers d l }
  | .policy d l => { c with policies := alSet c.policies d l }
  | .settings d x => { c with settings := alSet c.settings d x }
  | .usage d u => { c with usages := alSet c.usages (d, u.number) u }
  | .imageLoad d i v dig => { c with images := alSet c.images (d, i, v) dig }
  | .imageUnload d i v => { c with images := alDel c.images (d, i, v) }
  | .bind d q i v => { c with binds := alSet c.binds q (d, i, v) }
  | .unbind _ q => { c with binds := alDel c.binds q }
  | .raiseFloor d i f => { c with floors := alSet c.floors (d, i) (max f ((alGet c.floors (d, i)).getD 0)) }
  | .profile p => { c with profile := p }

/-- Effect of one record of the commit with CSN `csn`. -/
def Cfg.applyRec (c : Cfg) (csn : Nat) : Rec → Cfg
  | .conf r => c.applyConf r
  | .keyCreate k =>
    { c with
      keys := c.keys ++ [{ k with csnCreated := csn, csnChanged := csn }]
      gens := alSet c.gens (k.name.dom, k.name.idx) (max k.name.gen ((alGet c.gens (k.name.dom, k.name.idx)).getD 0)) }
  | .keyAttrs n a =>
    { c with keys := c.keys.map fun k => if k.name = n then { k with attrs := a, csnChanged := csn } else k }
  | .keyDelete n => { c with keys := c.keys.filter (fun k => decide (k.name ≠ n)) }
  | .reserve n b => { c with keys := c.keys.map fun k => if k.name = n then { k with ctrBase := b } else k }

/-- Effect of a commit: all of its records (R49). -/
def Cfg.applyCommit (c : Cfg) (m : Commit) : Cfg := m.recs.foldl (fun c r => c.applyRec m.csn r) c

/-- The committed state as of a CSN (R54). -/
def cfgAt (s : State) (n : Nat) : Cfg :=
  (s.ksc.commits.filter (fun m => decide (m.csn ≤ n))).foldl Cfg.applyCommit s.ksc.base

/-- The visible committed state (R318). -/
def cfgV (s : State) : Cfg := cfgAt s s.ksc.v

/-- CSN of the last commit in the unit's history (R47, R61). -/
def lastCsn (s : State) : Nat := s.ksc.commits.foldl (fun n m => max n m.csn) s.ksc.baseCsn

/-- Share block of an instance. -/
def Cfg.share (c : Cfg) (i : Nat) : Option Share := (alGet c.insts i).map (·.share)

/-- Binding of a queue: domain, image, version. -/
def Cfg.binding (c : Cfg) (q : Nat) : Option (Nat × Nat × Nat) := alGet c.binds q

/-- Version floor of an image. -/
def Cfg.floor (c : Cfg) (d i : Nat) : Nat := (alGet c.floors (d, i)).getD 0

/-- Resident image by domain, ID and version (R150). -/
def findImage (s : State) (d i v : Nat) : Option Image :=
  s.ksc.images.find? (fun x => x.dom == d && x.image == i && x.version == v)

/-- Entry word of a selector in an image (R145); none where undefined. -/
def imageEntry (x : Image) (sel : Nat) : Option Nat :=
  match x.entries[sel]? with
  | some w => if w = 0xFFFFFFFF then none else some w
  | none => none

/-- Sum over instances. -/
def Cfg.sumInst (c : Cfg) (f : Share → Nat) : Nat := c.insts.foldl (fun n x => n + f x.2.share) 0

/-! ### Entries of Table 7.2a -/

/-- Entries a record changes (Table 7.2a), resolved at the chain's snapshot. -/
def confChanges (c : Cfg) : ConfRec → List Entry
  | .domainCreate d => [.domain d]
  | .domainDelete d => [.domain d]
  | .instCreate i d _ => [.inst i, .instSet d, .tally]
  | .instDelete i => [.inst i, .instSet (((alGet c.insts i).map (·.dom)).getD 0), .tally]
  | .adminState i _ => [.inst i]
  | .shareChange i _ => [.inst i, .tally]
  | .queueConfigure q b => [.queue q, .queueSet b.inst, .tally]
  | .queueRemove q => [.queue q, .queueSet (((alGet c.queues q).map (·.inst)).getD 0), .tally]
  | .officerSet d _ => [.quorum 1 d]
  | .policy d _ => [.quorum 2 d]
  | .settings d _ => [.quorum 3 d]
  | .usage d _ => [.quorum 4 d]
  | .imageLoad d i v _ => [.image d i v]
  | .imageUnload d i v => [.image d i v]
  | .bind d q i v =>
    [.binding q, .bindSet d i v] ++ (match c.binding q with | some (d', i', v') => [.bindSet d' i' v'] | none => [])
  | .unbind _ q =>
    .binding q :: (match c.binding q with | some (d', i', v') => [.bindSet d' i' v'] | none => [])
  | .raiseFloor d i _ => [.floor d i]
  | .profile _ => [.profile]

/-- Entries a record reads (Table 7.2a). -/
def confReads : ConfRec → List Entry
  | .domainCreate d => [.domain d]
  | .domainDelete d => [.domain d, .instSet d]
  | .instCreate i d _ => [.domain d, .inst i, .tally]
  | .instDelete i => [.inst i, .queueSet i, .tally]
  | .adminState i _ => [.inst i]
  | .shareChange i _ => [.inst i, .tally]
  | .queueConfigure q b => [.queue q, .inst b.inst, .tally]
  | .queueRemove q => [.queue q, .tally]
  | .officerSet d _ => [.quorum 1 d]
  | .policy d _ => [.quorum 2 d]
  | .settings d _ => [.quorum 3 d]
  | .usage d _ => [.quorum 4 d]
  | .imageLoad d i v _ => [.image d i v, .floor d i]
  | .imageUnload d i v => [.image d i v, .bindSet d i v]
  | .bind d q i v => [.queue q, .binding q, .image d i v, .floor d i]
  | .unbind _ q => [.binding q]
  | .raiseFloor d i _ => [.floor d i]
  | .profile _ => [.profile, .tally]

/-- Entries changed by a record; a counter reservation changes no record (R376). -/
def recChanges (c : Cfg) : Rec → List Entry
  | .conf r => confChanges c r
  | .keyCreate k => [.key k.name]
  | .keyAttrs n _ => [.key n]
  | .keyDelete n => [.key n]
  | .reserve _ _ => []

/-- Entries read by a record. -/
def recReads : Rec → List Entry
  | .conf r => confReads r
  | .keyCreate k => [.key k.name]
  | .keyAttrs n _ => [.key n]
  | .keyDelete n => [.key n]
  | .reserve _ _ => []

/-- Some entry of the records was changed by a commit above the snapshot that `p` picks (R51, R818). -/
def conflictsWith (s : State) (snap : Nat) (recs : List Rec) (p : Nat → Bool) : Bool :=
  let c := cfgAt s snap
  let mine := recs.flatMap (fun r => recReads r ++ recChanges c r)
  s.ksc.commits.any fun m =>
    decide (snap < m.csn) && p m.csn &&
      m.recs.any fun r => (recChanges (cfgAt s (m.csn - 1)) r).any (fun e => mine.contains e)

/-- Some entry of the records was changed by a commit above the snapshot (R51, R818). -/
def conflicts (s : State) (snap : Nat) (recs : List Rec) : Bool := conflictsWith s snap recs fun _ => true

end Sys2Proof.Machine
end

