-- ==== Sys2Proof/Machine/Alu.lean ====
section
/-! DEFINITION. The integer functions of chapter 04 (Tables 4.4 to 4.7). The cores hold no flags: a condition is computed
where a branch or a comparison needs it. -/

namespace Sys2Proof.Machine

/-- 1 or 0. -/
def boolWord (b : Bool) : Word := if b then 1 else 0

/-- Leading zero bits, 0 to 64. -/
def clz64 (a : Word) : Nat := ((List.range 64).find? fun i => a.getLsbD (63 - i)).getD 64

/-- Trailing zero bits, 0 to 64. -/
def ctz64 (a : Word) : Nat := ((List.range 64).find? fun i => a.getLsbD i).getD 64

/-- One bits. -/
def popc64 (a : Word) : Nat := ((List.range 64).filter fun i => a.getLsbD i).length

/-- The low `n` bytes in reverse order, zero-extended. -/
def swapBytes (n : Nat) (a : Word) : Word := BitVec.ofNat 64 (beNat (leBytes n a.toNat))

/-- Shift amount (R168): the six low bits. -/
def shAmt (b : Word) : Nat := b.toNat % 64

/-- Result of a register operation (Table 4.4). -/
def regResult (f : RegOp) (a b : Word) : Word :=
  match f with
  | .add => a + b
  | .sub => a - b
  | .and => a &&& b
  | .or => a ||| b
  | .xor => a ^^^ b
  | .andn => a &&& ~~~b
  | .orn => a ||| ~~~b
  | .xnor => ~~~(a ^^^ b)
  | .sll => a <<< shAmt b
  | .srl => a >>> shAmt b
  | .sra => a.sshiftRight (shAmt b)
  | .rol => a.rotateLeft (shAmt b)
  | .ror => a.rotateRight (shAmt b)
  | .slt => boolWord (a.slt b)
  | .sltu => boolWord (a.ult b)
  | .min => if a.slt b then a else b
  | .max => if a.slt b then b else a
  | .minu => if a.ult b then a else b
  | .maxu => if a.ult b then b else a
  | .clz => BitVec.ofNat 64 (clz64 a)
  | .ctz => BitVec.ofNat 64 (ctz64 a)
  | .popc => BitVec.ofNat 64 (popc64 a)
  | .bswap => swapBytes 8 a
  | .bswapw => swapBytes 4 a
  | .bswaph => swapBytes 2 a
  | .sextb => (a.truncate 8).signExtend 64
  | .sexth => (a.truncate 16).signExtend 64
  | .sextw => (a.truncate 32).signExtend 64
  | .zextw => (a.truncate 32).zeroExtend 64

/-- Result of a multiply or divide (Table 4.5, R170, R171). -/
def mulResult (f : MulOp) (a b : Word) : Word :=
  match f with
  | .mul => a * b
  | .mulh => BitVec.ofInt 64 (a.toInt * b.toInt / 2 ^ 64)
  | .mulhu => BitVec.ofNat 64 (a.toNat * b.toNat / 2 ^ 64)
  | .mulhsu => BitVec.ofInt 64 (a.toInt * (b.toNat : Int) / 2 ^ 64)
  | .div => if b = 0 then BitVec.allOnes 64 else BitVec.ofInt 64 (a.toInt.tdiv b.toInt)
  | .divu => if b = 0 then BitVec.allOnes 64 else BitVec.ofNat 64 (a.toNat / b.toNat)
  | .rem => if b = 0 then a else BitVec.ofInt 64 (a.toInt.tmod b.toInt)
  | .remu => if b = 0 then a else BitVec.ofNat 64 (a.toNat % b.toNat)

/-- Immediate, zero-extended (R160): an unprefixed one occupies the low 16 bits. -/
def immZ (v : BitVec 32) : Word := v.zeroExtend 64

/-- Immediate, sign-extended from bit 31 when prefixed and from bit 15 otherwise (R160). -/
def immS (pfx : Bool) (v : BitVec 32) : Word := if pfx then v.signExtend 64 else (v.truncate 16).signExtend 64

/-- Result of an immediate operation (Table 4.6). -/
def immResult (f : ImmOp) (a : Word) (pfx : Bool) (v : BitVec 32) : Word :=
  match f with
  | .addi => a + immS pfx v
  | .andi => a &&& immZ v
  | .ori => a ||| immZ v
  | .xori => a ^^^ immZ v
  | .slti => boolWord (a.slt (immS pfx v))
  | .sltiu => boolWord (a.ult (immS pfx v))
  | .lih => (immZ v <<< 32) ||| ((a.truncate 32).zeroExtend 64)

/-- Result of a shift by immediate (R173). -/
def shResult (f : ShOp) (a : Word) (n : BitVec 6) : Word :=
  match f with
  | .slli => a <<< n.toNat
  | .srli => a >>> n.toNat
  | .srai => a.sshiftRight n.toNat
  | .rori => a.rotateRight n.toNat

/-- Branch condition (Table 4.7). -/
def brHolds (f : BrOp) (a b : Word) : Bool :=
  match f with
  | .eq => a == b
  | .ne => a != b
  | .lt => a.slt b
  | .ge => !a.slt b
  | .ltu => a.ult b
  | .geu => !a.ult b

/-- Offset of a branch, sign-extended (R181). -/
def brOffset (pfx : Bool) (v : BitVec 32) : Int := (immS pfx v).toInt

end Sys2Proof.Machine
end

