-- ==== Sys2Proof/Machine/Apu.lean ====
section
/-! DEFINITION. The physical address map and the access protection check (chapter 17). -/

namespace Sys2Proof.Machine

/-- Kinds of access, coded as in `APU_LAST`; each permission mask holds read in bit 0, write in bit 1 and execute in
bit 2 (log 20). -/
inductive Kind where
  | read | write | execute
deriving DecidableEq, Repr

/-- Code of a kind. -/
def Kind.code : Kind → Nat
  | .read => 0 | .write => 1 | .execute => 2

/-- An access as the units see it: initiator unit, target unit, privilege, domain, kind (R682). -/
structure Access where
  init : Nat
  target : Nat
  priv : Bool
  dom : Nat
  kind : Kind
deriving DecidableEq, Repr

/-- Targets of Table 17.1, by unit of Table 17.6: 96 SRAM, 97 DRAM, 98 control space. -/
def targetOf (v : Variant) (a : Nat) : Option Nat :=
  if a ≤ 0x15FFFF then some 98
  else if 0x0100000000 ≤ a ∧ a < 0x0100000000 + v.crews * 0x100000 then some 96
  else if 0x0110000000 ≤ a ∧ a < 0x0110000000 + v.cores * 0x10000 then some 96
  else if 0x0120000000 ≤ a ∧ a < 0x0120000000 + v.cacheEntries * 64 then some 96
  else if 0x1000000000 ≤ a ∧ a < 0x1000000000 + v.regions * 0x100000 then some 97
  else none

/-- Physical address of crew scratch (Table 17.1). -/
def scrBase (crew : Nat) : Nat := 0x0100000000 + crew * 0x100000

/-- Regions of a unit (Table 17.6). -/
def unitRegions (u : Nat) : Nat := if u < 73 then 16 else if 96 ≤ u ∧ u ≤ 98 then 64 else 0

/-- Rule in force for a unit's region. -/
def activeRule (s : State) (u r : Nat) : Rule := (alGet s.apu.active (u, r)).getD {}

/-- A region matches a byte for a domain (R681). -/
def Rule.matches (r : Rule) (dom a : Nat) : Bool :=
  bitOf r.attr 6 && decide (r.start ≤ a) && decide (a ≤ r.end_) && (bitOf r.attr 7 || r.attr / 256 % 8192 == dom)

/-- The governing region of a unit for a byte (R681); none while `en` is 0 (R693). -/
def governing (s : State) (u dom a : Nat) : Option Rule :=
  if blockEn s 14 0 then
    ((List.range (unitRegions u)).map (activeRule s u)).find? (fun r => r.matches dom a)
  else none

/-- A region permits an access. -/
def Rule.permits (r : Rule) (x : Access) : Bool := bitOf r.attr (x.kind.code + if x.priv then 3 else 0)

/-- Blocks that a core may only read under the default map: BIN, LCF, QRM and DBG (Table 17.7). -/
def readOnlyBlocks : List Nat := [15, 16, 19, 21]

/-- The default map (Table 17.7) for the grain at `a`. -/
def defaultMap (v : Variant) (x : Access) (a : Nat) : Bool :=
  if x.init < 64 then
    if x.target = 98 then x.kind == .read || (x.kind == .write && !readOnlyBlocks.contains (a / 0x10000))
    else decide (scrBase (x.init / 8) ≤ a ∧ a < scrBase (x.init / 8) + 0x100000) && x.kind != .execute
  else if x.init = 64 then x.target == 98 && x.kind != .execute
  else if x.init = 69 ∨ x.init = 70 then
    x.target == 97 && x.kind != .execute && decide (a < 0x1000000000 + v.regions * 0x100000 * 34 / 52)
  else false

/-- Check of one side for one grain (R683): permitted? -/
def sideOk (s : State) (x : Access) (unit a : Nat) : Bool :=
  match governing s unit x.dom a with
  | some r => r.permits x
  | none => x.priv && defaultMap s.variant x a

/-- The first refusing unit of an access of `len` bytes at `a` (R683): the unit, and whether it is the target's. -/
def apuRefuses (s : State) (x : Access) (a len : Nat) : Option (Nat × Bool) :=
  let grains := (List.range (if len = 0 then 0 else (a + len - 1) / 32 - a / 32 + 1)).map fun i =>
    if i = 0 then a else (a / 32 + i) * 32
  grains.findSome? fun p =>
    if sideOk s x x.init p = false then some (x.init, false)
    else if sideOk s x x.target p = false then some (x.target, true) else none

/-- Count and latch a refusal (R684, Table 17.12); a Log record for initiators other than cores (log 21). -/
def apuRefused (s : State) (x : Access) (w : Nat × Bool) : State :=
  let s := { s with apu := { s.apu with
      faults := satInc 65535 s.apu.faults
      last := w.1 + 128 * b2n w.2 + 256 * x.kind.code } }
  if x.init < 64 then s else logOpen s 0x0E 1

end Sys2Proof.Machine
end

