-- ==== Sys2Proof/Machine/Operands.lean ====
section
/-! DEFINITION. The memory spaces of a program, their checks in the order of R180, buffer references (R217-R219), and
the stall of R116 on bytes that an outstanding job still uses. -/

namespace Sys2Proof.Machine

/-- Space of a reference's code (R217). -/
def spaceOf : Nat → Option Space
  | 0 => some .ldm | 1 => some .req | 2 => some .rpl | 3 => some .con | 4 => some .scr | _ => none

/-- An item runs privileged when its image belongs to domain 0 (R136). -/
def Item.priv (x : Item) : Bool := match x.image with
  | some im => im.dom == 0
  | none => false

/-- Domain of the running image (R226). -/
def Item.imageDom (x : Item) : Nat := match x.image with
  | some im => im.dom
  | none => x.dom

/-- Constant section of the running image. -/
def Item.const (x : Item) : List Byte := match x.image with
  | some im => im.const
  | none => []

/-- Code words of the running image (R155). -/
def Item.code (x : Item) : List Nat := match x.image with
  | some im => im.code
  | none => []

/-- Bytes of a space, from offset `off` (Table 3.2). -/
def readSpace (s : State) (c : CoreId) (x : Item) (sp : Space) (off n : Nat) : List Byte :=
  match sp with
  | .ldm => Mem.read (s.core c).ldm off n
  | .req => slice x.payload off n
  | .rpl => Mem.read x.rpl off n
  | .con => slice x.const off n
  | .scr => Mem.read (vget s.scratch (crewOf c) []) off n

/-- Store bytes in a space; `req` and `con` take none. -/
def writeSpace (s : State) (c : CoreId) (sp : Space) (off : Nat) (bs : List Byte) : State :=
  match sp with
  | .ldm => let k := s.core c; s.setCore c { k with ldm := Mem.write k.ldm off bs }
  | .rpl => modItem s c fun x => { x with rpl := Mem.write x.rpl off bs }
  | .scr => { s with scratch := vset s.scratch (crewOf c) (Mem.write (vget s.scratch (crewOf c) []) off bs) }
  | .req | .con => s

/-- Refusal of a scratch access by the protection units (R138). -/
def scrRefused (s : State) (c : CoreId) (x : Item) (store : Bool) (off len : Nat) : Option (Nat × Bool) :=
  apuRefuses s
    { init := c.val, target := 96, priv := x.priv, dom := x.imageDom, kind := if store then .write else .read }
    (scrBase (crewOf c) + off) len

/-- Fault of an access of `len` ≥ 1 bytes, in the order of R180 steps 1 to 4 (R112, R113, R137, R179). -/
def accessFault (s : State) (c : CoreId) (x : Item) (sp : Space) (store : Bool) (off len : Nat) : Option Nat :=
  if sp = .scr ∧ x.priv = false then some St.accessFault
  else if (store = true ∧ (sp = .req ∨ sp = .con)) ∨ (store = false ∧ sp = .rpl) then some St.accessFault
  else match sp with
    | .ldm => if 65536 < off + len then some St.accessFault else none
    | .req => if x.payload.length < off + len then some St.windowBounds else none
    | .con => if x.const.length < off + len then some St.windowBounds else none
    | .rpl => if x.replyCap < off + len then some St.windowBounds else none
    | .scr =>
      if 1048576 < off + len then some St.accessFault
      else if (scrRefused s c x store off len).isSome then some St.accessFault else none

/-- Step of R180 at which an access fails; the smaller is reported first. -/
def faultRank (s : State) (c : CoreId) (x : Item) (sp : Space) (store : Bool) (off len : Nat) : Option (Nat × Nat) :=
  (accessFault s c x sp store off len).map fun st =>
    (if sp = .scr ∧ x.priv = false then 1
     else if (store = true ∧ (sp = .req ∨ sp = .con)) ∨ (store = false ∧ sp = .rpl) then 2
     else if sp = .scr ∧ off + len ≤ 1048576 then 4 else 3, st)

/-! ### Buffer references -/

/-- A reference from its eight bytes (R217). -/
def parseRef (b : List Byte) : BufRef :=
  let n := leNat b
  { off := n % 2 ^ 32, len := n / 2 ^ 32 % 2 ^ 24, space := n / 2 ^ 56 % 8, high := n / 2 ^ 59 }

/-- The reference at an offset of a parameter block. -/
def refAt (blk : List Byte) (off : Nat) : BufRef := parseRef (slice blk off 8)

/-- The reference's space and high bits are valid (R217). -/
def BufRef.valid (r : BufRef) : Bool := decide (r.space ≤ 4 ∧ r.high = 0)

/-- Fault that a reference meets at issue, with its rank in R180; none for an invalid reference or one of length 0
(R218). -/
def refFault (s : State) (c : CoreId) (x : Item) (r : BufRef) (dest : Bool) : Option (Nat × Nat) :=
  if r.valid = false ∨ r.len = 0 then none
  else match spaceOf r.space with
    | some sp => faultRank s c x sp dest r.off r.len
    | none => none

/-- First fault, in the order of R180, among the references of a block (R218). -/
def refsFault (s : State) (c : CoreId) (x : Item) (rs : List (BufRef × Bool)) : Option Nat :=
  let fs := rs.filterMap fun p => refFault s c x p.1 p.2
  (fs.foldl (fun (best : Option (Nat × Nat)) f =>
    match best with
    | some b => if f.1 < b.1 then some f else some b
    | none => some f) none).map (·.2)

/-- A parameter block at `off` of `n` bytes faults (R215). -/
def blockFault (off n : Nat) : Option Nat :=
  if off % 8 ≠ 0 ∨ 65536 < off + n then some St.accessFault else none

/-- Bytes that a reference names. -/
def readRef (s : State) (c : CoreId) (x : Item) (r : BufRef) : List Byte :=
  match spaceOf r.space with
  | some sp => readSpace s c x sp r.off r.len
  | none => []

/-- Store bytes at the start of a reference. -/
def writeRef (s : State) (c : CoreId) (r : BufRef) (bs : List Byte) : State :=
  match spaceOf r.space with
  | some sp => writeSpace s c sp r.off (bs.take r.len)
  | none => s

/-- Two references share a byte. -/
def BufRef.overlaps (a b : BufRef) : Bool :=
  a.space == b.space && decide (0 < a.len ∧ 0 < b.len ∧ a.off < b.off + b.len ∧ b.off < a.off + a.len)

/-- Destination and source overlap other than by coinciding exactly (R219). -/
def partOverlap (d src : BufRef) : Bool := d.overlaps src && !(d.off == src.off && d.len == src.len)

/-! ### Outstanding jobs of an item (R116, R220) -/

/-- A mode with customisation in the AAD reference. -/
def customMode (m : Nat) : Bool := m == 0x28 || m == 0x29

/-- References that a `CIPH` block uses as sources (R820, Table 5.6). -/
def ciphReads (b : CiphBlk) : List BufRef :=
  match b.mode with
  | 1 | 7 | 8 | 9 => [b.src]
  | 2 | 3 | 4 => [b.src, b.iv]
  | 5 => [b.src, b.aad] ++ (if b.dir = 1 then [b.iv, b.tagRef] else [])
  | 6 => [b.aad]
  | _ => [b.src, b.aad]

/-- References that a `CIPH` block uses as destinations. -/
def ciphWrites (b : CiphBlk) : List BufRef :=
  match b.mode with
  | 5 => [b.dst] ++ (if b.dir = 0 then [b.tagRef, b.iv] else [])
  | 6 => [b.tagRef, b.iv]
  | 7 | 8 | 9 => [b.tagRef]
  | _ => [b.dst]

/-- References that a `MACV` block uses. -/
def macvReads (b : CiphBlk) : List BufRef :=
  if b.mode = 6 then [b.aad, b.iv, b.tagRef]
  else [b.src] ++ (if customMode b.mode then [b.aad] else []) ++ [b.tagRef]

/-- References that a `KMAC` block uses as sources. -/
def kmacReads (b : CiphBlk) : List BufRef := [b.src] ++ (if customMode b.mode then [b.aad] else [])

/-- References that a job reads. -/
def JobOp.reads : JobOp → List BufRef
  | .ciph b _ => ciphReads b
  | .macv b => macvReads b
  | .kmac b => kmacReads b
  | .hash _ _ src _ => [src]
  | .keyInstr _ _ r _ => r
  | .cvupd _ src => [src]

/-- References that a job writes. -/
def JobOp.writes : JobOp → List BufRef
  | .ciph b _ => ciphWrites b
  | .macv _ => []
  | .kmac b => [b.dst]
  | .hash _ _ _ dst => [dst]
  | .keyInstr _ _ _ w => w
  | .cvupd _ _ => []

/-- All jobs an engine holds. -/
def SymEngine.jobs (e : SymEngine) : List SymJob := e.running.toList ++ e.saved ++ e.queue

/-- Every symmetric job of the module. -/
def allSymJobs (s : State) : List SymJob :=
  (s.cph.toList ++ s.hsh.toList ++ s.cvu.toList).flatMap SymEngine.jobs

/-- Outstanding symmetric jobs of the item on core `c`. -/
def jobsOf (s : State) (c : CoreId) : List SymJob :=
  (allSymJobs s).filter fun j => j.core == c && !j.scrub

/-- Byte ranges that the pending key instructions and `RNG` of a core still write. -/
def pendingWrites (k : Core) : List BufRef :=
  k.pendK.flatMap (fun p => p.dst :: p.ldm.map fun w => { off := w.1, len := w.2.length })
    ++ k.pendG.flatMap (fun p =>
        p.ldm.map (fun w => { off := w.1, len := w.2.length }) ++
        (p.rngLen.toList.map fun w => { off := w.1, len := w.2 }))

/-- A job may touch the bytes that a core names: one of its own item, or in the crew's scratch one of any core of the crew
(R116). -/
def jobNear (c : CoreId) (r : BufRef) (j : SymJob) : Bool :=
  !j.scrub && (j.core == c || (r.space == Space.scr.code && crewOf j.core == crewOf c))

/-- The core stalls on these bytes (R116, R216). -/
def bytesBusy (s : State) (c : CoreId) (r : BufRef) : Bool :=
  (allSymJobs s).any (fun j => jobNear c r j && (j.op.reads ++ j.op.writes).any r.overlaps)
    || (pendingWrites (s.core c)).any r.overlaps

/-- A range of a space as a reference. -/
def rangeOf (sp : Space) (off len : Nat) : BufRef := { off := off, len := len, space := sp.code }

end Sys2Proof.Machine
end

