-- ==== Sys2Proof/Machine/Timing.lean ====
section
/-! DEFINITION. Cycle and block-operation counts of the symmetric engines (Tables 10.1 and 10.3) and issue cycles of the
core (Table 4.12), as functions of what the spec says they depend on (R210, R451). -/

namespace Sys2Proof.Machine

/-- Cycles of one block operation (chapter 10). -/
def blockCycles (alg : Nat) : Nat := if alg = 1 then 11 else if alg = 2 then 13 else if alg = 3 then 15 else 50

/-- Block size in bytes. -/
def blockSize (alg : Nat) : Nat := if alg ≤ 3 then 16 else 8

/-- An AES algorithm code (Table 5.1). -/
def isAes (alg : Nat) : Bool := decide (1 ≤ alg ∧ alg ≤ 3)

/-- A TDES algorithm code. -/
def isTdes (alg : Nat) : Bool := alg == 4 || alg == 5

/-- Blocks of an ISO 9797-1 MAC after padding (Table 10.1). -/
def isoBlocks (padding len : Nat) : Nat := if padding = 1 then max 1 (ceilDiv len 8) else ceilDiv (len + 1) 8

/-- Bits of a number. -/
def bitLen (n : Nat) : Nat := if n = 0 then 0 else Nat.log2 n + 1

/-- AES blocks per Feistel round of FF1 (Table 10.1). -/
def ff1Blocks (radix v t : Nat) : Nat :=
  let b := ceilDiv (bitLen (radix ^ (v - v / 2) - 1)) 8
  let d := 4 * ceilDiv b 4 + 4
  1 + ceilDiv (t + b + 1) 16 + ceilDiv d 16 - 1

/-- Block operations that a PIN block of a format costs. -/
def pinOps (fmt : Nat) : Nat := if fmt = 4 then 2 else 1

/-- Numerals of an FF1 source (Table 5.6). -/
def numerals (radix len : Nat) : Nat := if radix ≤ 256 then len else len / 2

/-- Inputs of a cipher job's cost. -/
structure CipherCost where
  mode : Nat
  dir : Nat
  alg : Nat
  alg2 : Nat := 0
  len : Nat
  aad : Nat := 0
  param : Nat := 0
  aux : Nat := 0
  verify : Bool := false
deriving DecidableEq, Repr

/-- Block operations for C7 (Table 10.1). -/
def cipherBlocks (x : CipherCost) : Nat :=
  match x.mode with
  | 1 | 2 => x.len / blockSize x.alg
  | 3 => ceilDiv x.len 16
  | 4 => x.len
  | 5 => 1 + ceilDiv x.len 16
  | 6 => 1
  | 7 => 1 + max 1 (ceilDiv x.len (blockSize x.alg))
  | 8 | 9 => isoBlocks (x.aux % 4) x.len
  | 10 => 10 * ff1Blocks x.param (numerals x.param x.len) x.aad
  | _ => pinOps (x.aux % 16) + pinOps (x.aux / 16)

/-- Cycles of a cipher job, overhead included (R450). -/
def cipherCycles (x : CipherCost) : Nat :=
  let p := blockCycles x.alg
  let v := if x.verify then 4 else 0
  26 + match x.mode with
  | 1 | 2 => p * (x.len / blockSize x.alg)
  | 3 => p * ceilDiv x.len 16
  | 4 => p * x.len
  | 5 => p + ceilDiv x.aad 16 + p * ceilDiv x.len 16 + 4 + (if x.dir = 1 then 4 + ceilDiv x.len 16 else 0)
  | 6 => p + ceilDiv x.aad 16 + 4 + v
  | 7 => p + p * max 1 (ceilDiv x.len (blockSize x.alg)) + v
  | 8 => 50 * isoBlocks (x.aux % 4) x.len + v
  | 9 => 18 * isoBlocks (x.aux % 4) x.len + 34 + v
  | 10 =>
    let n := numerals x.param x.len
    10 * (p * ff1Blocks x.param n x.aad + 2 * n)
  | _ => p * pinOps (x.aux % 16) + 20 + blockCycles x.alg2 * pinOps (x.aux / 16)

/-- Block operations of AES-KW and AES-KWP for a payload (Table 10.1). -/
def kwBlocks (padded : Nat) : Nat := if padded ≤ 8 then 1 else 6 * (padded / 8)

/-- Cycles of a key wrap or unwrap (Table 10.1). -/
def kwCycles (alg padded : Nat) (unwrap : Bool) : Nat :=
  26 + blockCycles alg * kwBlocks padded + (if unwrap then 4 else 0)

/-- Rate in bytes of a Keccak function, by `HASH` algorithm code. -/
def keccakRate (alg : Nat) : Nat :=
  if alg = 0x11 then 144 else if alg = 0x12 then 136 else if alg = 0x13 then 104 else if alg = 0x14 then 72
  else if alg = 0x18 then 168 else 136

/-- Digest length in bytes of a `HASH` algorithm other than SHAKE (R242). -/
def digestLen (alg : Nat) : Nat :=
  if alg = 0x01 then 32 else if alg = 0x02 then 48 else if alg = 0x03 then 64 else if alg = 0x11 then 28
  else if alg = 0x12 then 32 else if alg = 0x13 then 48 else 64

/-- Blocks or permutations of a `HASH` job (Table 10.3). -/
def hashBlocks (alg len out : Nat) : Nat :=
  if alg = 1 then ceilDiv (len + 9) 64
  else if alg ≤ 3 then ceilDiv (len + 17) 128
  else if alg < 0x18 then len / keccakRate alg + 1
  else len / keccakRate alg + 1 + ceilDiv out (keccakRate alg) - 1

/-- Blocks or permutations of an HMAC or KMAC job (Table 10.3), `k` and `s` being the key and customisation lengths. -/
def macBlocks (mode len k s : Nat) : Nat :=
  match mode with
  | 0x20 => 1 + ceilDiv (len + 9) 64 + 2 + (if 64 < k then ceilDiv (k + 9) 64 else 0)
  | 0x21 | 0x22 => 1 + ceilDiv (len + 17) 128 + 2
  | 0x23 => 1 + len / 136 + 1 + 2 + (if 136 < k then k / 136 + 1 else 0)
  | 0x24 => 1 + len / 72 + 1 + 2 + (if 72 < k then k / 72 + 1 else 0)
  | 0x28 => ceilDiv (s + 11) 168 + 1 + (len + 3) / 168 + 1
  | _ => ceilDiv (s + 11) 136 + 1 + (len + 3) / 136 + 1

/-- Cycles of one block or permutation of a hash algorithm (chapter 10). -/
def hashUnit (sha256 sha2 : Bool) : Nat := if sha256 then 64 else if sha2 then 80 else 24

/-- Cycles of a `HASH` job (R463). -/
def hashCycles (alg len out : Nat) : Nat :=
  26 + hashUnit (alg == 1) (decide (alg ≤ 3)) * hashBlocks alg len out

/-- Cycles of an HMAC or KMAC job (R463). -/
def macCycles (mode len k s : Nat) : Nat :=
  26 + hashUnit (mode == 0x20) (decide (mode ≤ 0x22)) * macBlocks mode len k s

/-- Cycles of a `CVUPD` (R472). -/
def cvupdCycles (len : Nat) : Nat := 6 + ceilDiv len 8

/-- An access crosses the boundary of Table 4.12. -/
def crosses (grain off len : Nat) : Bool := off / grain != (off + len - 1) / grain

end Sys2Proof.Machine
end

