-- ==== Sys2Proof/Machine/Keys.lean ====
section
/-! DEFINITION. Attribute descriptors, key material, key check values and key-use checks (chapters 05 and 08). -/

namespace Sys2Proof.Machine

/-- Algorithm codes of Table 5.1. -/
def algOk (a : Nat) : Bool :=
  decide ((1 ≤ a ∧ a ≤ 6) ∨ (0x10 ≤ a ∧ a ≤ 0x14) ∨ (0x18 ≤ a ∧ a ≤ 0x1A) ∨ (0x20 ≤ a ∧ a ≤ 0x22) ∨
    (0x28 ≤ a ∧ a ≤ 0x2A))

/-- Bytes of key material (Table 8.3). -/
def materialLen (alg size : Nat) : Nat :=
  match alg with
  | 1 => 16 | 2 => 24 | 3 => 32 | 4 => 16 | 5 => 24 | 6 => size / 8
  | 0x10 => 96 | 0x11 => 144 | 0x12 => 198 | 0x13 => 64 | 0x14 => 64
  | 0x18 => 648 | 0x19 => 968 | 0x1A => 1288
  | 0x20 | 0x21 | 0x22 => 96 | 0x28 | 0x29 | 0x2A => 64 | _ => 0

/-- Secret part of the material that a generation draws: the private scalar, the seed, or the whole symmetric key. -/
def secretLen (alg size : Nat) : Nat :=
  match alg with
  | 0x10 => 32 | 0x11 => 48 | 0x12 => 66 | 0x13 | 0x14 => 32
  | 0x20 | 0x21 | 0x22 => 64 | 0x28 | 0x29 | 0x2A => 32
  | _ => materialLen alg size

/-- Records that a key occupies (R368). -/
def recordsOf (alg size : Nat) : Nat := 1 + ceilDiv (materialLen alg size - 128) 216

/-- Key-cache entries that a key occupies (chapter 08). -/
def entriesOf (k : KeyRec) : Nat := ceilDiv (materialLen k.attrs.alg k.attrs.size) 64

/-- A symmetric key: AES, TDES or HMAC secret. -/
def symmetricAlg (alg : Nat) : Bool := decide (1 ≤ alg ∧ alg ≤ 6)

/-- A value fits the size rule of Table 5.1. -/
def sizeOk (alg size : Nat) : Bool :=
  if alg = 6 then decide (128 ≤ size ∧ size ≤ 1024 ∧ size % 8 = 0) else size == 0

/-- The descriptor of Table 5.1 at the start of a string; none where a field lies outside its values. Bit 3 of `flags` is
none of the descriptor's: the module sets generated-inside itself. -/
def parseAttrs (b : List Byte) : Option Attrs :=
  let alg := fieldAt b 0 2
  let size := fieldAt b 2 2
  let usage := fieldAt b 4 2
  let engines := fieldAt b 6 1
  let flags := fieldAt b 7 1
  if algOk alg && sizeOk alg size && decide (usage < 1024 ∧ engines < 64 ∧ flags < 8) && rsvdOk b 24 8 then
    some { alg := alg, size := size, usage := usage, engines := engines, exportable := bitOf flags 0,
           dual := bitOf flags 1, persist := bitOf flags 2, notBefore := fieldAt b 8 8, notAfter := fieldAt b 16 8 }
  else none

/-- The `flags` byte, generated-inside in bit 3 (Table 5.4 read). -/
def attrFlags (a : Attrs) : Nat := b2n a.exportable + 2 * b2n a.dual + 4 * b2n a.persist + 8 * b2n a.generated

/-- A descriptor's 32 bytes. -/
def attrBytes (a : Attrs) : List Byte :=
  leBytes 2 a.alg ++ leBytes 2 a.size ++ leBytes 2 a.usage ++ leBytes 1 a.engines ++ leBytes 1 (attrFlags a)
    ++ leBytes 8 a.notBefore ++ leBytes 8 a.notAfter ++ zeros 8

/-- A key ID: domain, index, generation (08, "Key IDs"). -/
def keyIdOf (n : KeyName) : Nat := n.dom * 2 ^ 51 + n.idx * 2 ^ 24 + n.gen

/-- The fields of a key ID. -/
def nameOfId (id : Nat) : KeyName := { dom := id / 2 ^ 51 % 2 ^ 13, idx := id / 2 ^ 24 % 2 ^ 27, gen := id % 2 ^ 24 }

/-- Usage bits (Table 5.1). -/
def uEncrypt : Nat := 0
def uDecrypt : Nat := 1
def uWrap : Nat := 2
def uUnwrap : Nat := 3
def uSign : Nat := 4
def uVerify : Nat := 5
def uDerive : Nat := 6
def uMacGen : Nat := 7
def uMacVerify : Nat := 8
def uPin : Nat := 9

/-- Engine-set bits (Table 5.1). -/
def eCph : Nat := 0
def eHsh : Nat := 1
def eBne : Nat := 2
def eLte : Nat := 3
def eKdf : Nat := 4

/-- Inputs that name a key to a cryptographic function: its algorithm and material. -/
def keyIn (k : KeyRec) : List (List Byte) := [leBytes 2 k.attrs.alg, k.material]

/-! ### GCM (NIST SP 800-38D), over the block cipher of a key -/

/-- One block under a key named by its inputs. -/
def encBlock (key : List (List Byte)) (b : List Byte) : List Byte := cryptoBytes .blockEnc (key ++ [b]) 16

/-- Key stream of a 96-bit IV from counter block `c` on, `n` blocks. -/
def gcmStream (key : List (List Byte)) (iv : List Byte) (c n : Nat) : List Byte :=
  (List.range n).flatMap fun i => encBlock key (iv ++ beBytes 4 (c + i))

/-- Ciphertext of a text, or the text of a ciphertext: the key stream starts at counter 2. -/
def gcmText (key : List (List Byte)) (iv b : List Byte) : List Byte :=
  xorBytes b (gcmStream key iv 2 (ceilDiv b.length 16))

/-- One bit of a product in GF(2^128), and the multiplicand shifted by one: bit 127 is the first. -/
def gfStep (v : Nat) (z : Nat) (bit : Bool) : Nat × Nat :=
  ((if bit then z ^^^ v else z), if v % 2 = 1 then v / 2 ^^^ 0xE1 * 2 ^ 120 else v / 2)

/-- Product in the GCM field. -/
def gfMul (x y : Nat) : Nat :=
  ((List.range 128).foldl (fun (p : Nat × Nat) i => gfStep p.2 p.1 (bitOf x (127 - i))) (0, y)).1

/-- A string padded with zeros to whole blocks. -/
def padBlock (b : List Byte) : List Byte := b ++ zeros (ceilDiv b.length 16 * 16 - b.length)

/-- The blocks of a string as numbers, most significant byte first. -/
def blocksOf : Nat → List Byte → List Nat
  | 0, _ => []
  | n + 1, b => beNat (b.take 16) :: blocksOf n (b.drop 16)

/-- GHASH of additional data and ciphertext. -/
def ghash (h : Nat) (aad ct : List Byte) : Nat :=
  let s := padBlock aad ++ padBlock ct ++ beBytes 8 (8 * aad.length) ++ beBytes 8 (8 * ct.length)
  (blocksOf (s.length / 16) s).foldl (fun y x => gfMul (y ^^^ x) h) 0

/-- The 16-byte tag. -/
def gcmTag (key : List (List Byte)) (iv aad ct : List Byte) : List Byte :=
  xorBytes (beBytes 16 (ghash (beNat (encBlock key (zeros 16))) aad ct)) (gcmStream key iv 1 1)

/-- Length of the public part of a key (Table 8.3a, Table 12.2). -/
def publicLen (alg : Nat) : Nat :=
  match alg with
  | 0x10 => 65 | 0x11 => 97 | 0x12 => 133 | 0x13 | 0x14 => 32 | 0x18 => 264 | 0x19 => 392 | 0x1A => 520
  | 0x20 => 800 | 0x21 => 1184 | 0x22 => 1568 | 0x28 => 1312 | 0x29 => 1952 | 0x2A => 2592 | _ => 0

/-- Public part that belongs to a private scalar or a seed (log 15). -/
def derivePublic (alg : Nat) (secret : List Byte) (n : Nat) : List Byte :=
  cryptoBytes .publicPart [leBytes 2 alg, secret] n

/-- Encoding of the public part of a key (R813): read from the material where Table 8.3 stores it there. -/
def publicPart (k : KeyRec) : List Byte :=
  let a := k.attrs.alg
  let m := k.material
  match a with
  | 0x10 | 0x11 | 0x12 => 4 :: m.drop (secretLen a 0)
  | 0x13 | 0x14 => m.drop 32
  | 0x18 | 0x19 | 0x1A =>
    let n := (m.length - 8) / 5
    beBytes (publicLen a - 8) (beNat (m.take n) * beNat ((m.drop n).take n)) ++ m.drop (m.length - 8)
  | 0x20 | 0x21 | 0x22 | 0x28 | 0x29 | 0x2A => derivePublic a (m.take (secretLen a 0)) (publicLen a)
  | _ => []

/-- SHA3-256. -/
def sha3_256 (b : List Byte) : List Byte := cryptoBytes .sha3 [leBytes 1 0x12, b] 32

/-- An ML-DSA signature of a message with a context verifies under a public key (log 15). -/
def mldsaVerifies (alg : Nat) (pk ctx msg sig : List Byte) : Bool :=
  Config.cryptoOk .mldsaSign [leBytes 2 alg, pk, BitVec.ofNat 8 ctx.length :: ctx ++ msg, sig]

/-- An ECDSA signature of a digest verifies under a point of curve 0 (P-256) or 1 (P-384) (log 15). -/
def ecdsaVerifies (curve : Nat) (pk digest sig : List Byte) : Bool :=
  Config.cryptoOk .ecSign [leBytes 1 curve, pk, digest, sig]

/-- Digest of a `HASH` algorithm (R242). -/
def digestOf (alg n : Nat) (src : List Byte) : List Byte :=
  if alg ≤ 3 then cryptoBytes .sha2 [leBytes 1 alg, src] n
  else if alg < 0x18 then cryptoBytes .sha3 [leBytes 1 alg, src] n
  else cryptoBytes .shake [leBytes 1 alg, src] n

/-- The hash of an HMAC mode (Table 5.6): its `HASH` algorithm, its digest length, and its block or rate. -/
def hmacHash : Nat → Nat × Nat × Nat
  | 0x20 => (1, 32, 64)
  | 0x21 => (2, 48, 128)
  | 0x22 => (3, 64, 128)
  | 0x23 => (0x12, 32, 136)
  | _ => (0x14, 64, 72)

/-- HMAC of RFC 2104 over the hash of its mode (R464): a key longer than the block is hashed. -/
def hmacOf (mode : Nat) (key msg : List Byte) : List Byte :=
  let (alg, n, block) := hmacHash mode
  let k := if block < key.length then digestOf alg n key else key
  let k := k ++ zeros (block - k.length)
  let pad := fun (b : Byte) => k.map fun x => x ^^^ b
  digestOf alg n (pad 0x5C ++ digestOf alg n (pad 0x36 ++ msg))

/-- Key check value of a key (R371). -/
def kcvOf (k : KeyRec) : List Byte :=
  let a := k.attrs.alg
  if isAes a then cryptoBytes .cmac (keyIn k ++ [zeros 16]) 3
  else if a = 6 then (hmacOf 0x20 k.material (zeros 16)).take 3
  else if isTdes a then cryptoBytes .ecbEnc (keyIn k ++ [zeros 8]) 3
  else (sha3_256 (publicPart k)).take 3

/-- Material of a generated key from its drawn secret: the public part or its digest follows the secret (Table 8.3). -/
def materialFrom (alg : Nat) (secret : List Byte) : List Byte :=
  match alg with
  | 0x10 | 0x11 | 0x12 => secret ++ derivePublic alg secret (publicLen alg - 1)
  | 0x13 | 0x14 => secret ++ derivePublic alg secret 32
  | 0x20 | 0x21 | 0x22 | 0x28 | 0x29 | 0x2A => secret ++ sha3_256 (derivePublic alg secret (publicLen alg))
  | _ => secret

/-! ### Key-use checks -/

/-- Table 5.2 rows 1 to 4: status of the first failing check, 0 where all pass. -/
def useCheck (k : Option KeyRec) (engine : Nat) (usages : List Nat) (algFits : Nat → Bool) : Nat :=
  match k with
  | none => St.noHandle
  | some k =>
    if bitOf k.attrs.engines engine = false then St.keyEngineMismatch
    else if usages.all (bitOf k.attrs.usage) = false then St.keyPolicy
    else if algFits k.attrs.alg = false then St.paramInvalid
    else 0

/-- Next value of a key's live invocation counter (R377). -/
def counterOf (s : State) (n : KeyName) : Counter := (alGet s.ksc.counters n).getD {}

/-- The committed record of a key as of V. -/
def keyAtV (s : State) (n : KeyName) : Option KeyRec := (cfgV s).keys.find? fun k => k.name == n

/-- The key's creating commit is visible (R816); a delete that is visible too takes no counter away (R377). -/
def ctrLive (s : State) (k : KeyRec) : Bool :=
  (keyAtV s k.name).isSome || !(counterOf s k.name).fresh || (k.csnCreated != 0 && decide (k.csnCreated ≤ s.ksc.v))

/-- Its `ctr_base`: the committed one, or that of the handle once the key is deleted. -/
def ctrBaseOf (s : State) (k : KeyRec) : Nat := ((keyAtV s k.name).map (·.ctrBase)).getD k.ctrBase

/-- The next counter value of a key: the first of its next reservation after a start (R390). -/
def nextCtr (s : State) (k : KeyRec) : Nat :=
  let c := counterOf s k.name
  if k.name.idx ≠ 0 ∧ c.fresh = true ∧ ctrLive s k = true then ctrBaseOf s k + 65536 else c.next

/-- The key is spent: its next value would be 2^40 (R389, R390, R455). -/
def spent (s : State) (k : KeyRec) : Bool := decide (2 ^ 40 ≤ nextCtr s k)

/-! ### Modes (Table 5.6) -/

/-- A mode of the hash engines. -/
def hashMode (m : Nat) : Bool := decide ((0x20 ≤ m ∧ m ≤ 0x24) ∨ m = 0x28 ∨ m = 0x29)

/-- The algorithm suits the mode (Table 5.6). -/
def algSuits (mode alg : Nat) : Bool :=
  match mode with
  | 1 | 2 | 7 => isAes alg || isTdes alg
  | 3 | 4 | 5 | 6 | 10 => isAes alg
  | 8 => isTdes alg
  | 9 => alg == 4
  | 11 => isAes alg || isTdes alg
  | 0x20 | 0x21 | 0x22 | 0x23 | 0x24 => alg == 6
  | 0x28 | 0x29 => alg == 6 || isAes alg
  | _ => false

/-- Tag range of a MAC mode for generation and verification; the key's block size bounds CMAC and a MAC over a hash the
digest size (Table 5.6). -/
def tagRange (mode : Nat) (alg : Option Nat) : Nat × Nat :=
  match mode with
  | 7 => (4, match alg with | some a => blockSize a | none => 16)
  | 8 | 9 => (4, 8)
  | 0x20 => (16, 32) | 0x21 => (16, 48) | 0x22 => (16, 64) | 0x23 => (16, 32) | 0x24 => (16, 64)
  | 0x28 => (16, 32) | 0x29 => (16, 64)
  | _ => (12, 16)

end Sys2Proof.Machine
end

