-- ==== Sys2Proof/Machine/Crypt.lean ====
section
/-! DEFINITION. Protocols built of the primitives of log 15: KMAC256, AES-256-GCM, ML-KEM and ML-DSA on the encodings that
the engines use, and the module's own three keys with their certificates (R440, R441). -/

namespace Sys2Proof.Machine

/-- ASCII bytes of a string, without a terminator. -/
def ascii (s : String) : List Byte := s.toList.map fun c => BitVec.ofNat 8 c.toNat

/-- KMAC256 with key, input, output length in bytes and customisation string. -/
def kmac256 (key x : List Byte) (n : Nat) (custom : List Byte) : List Byte :=
  cryptoBytes .kmac [leBytes 1 0x29, key, custom, x, leBytes 2 n] n

/-- AES-256-GCM: ciphertext and tag. -/
def gcmSeal (key iv aad pt : List Byte) : List Byte × List Byte :=
  let ct := gcmText [leBytes 2 3, key] iv pt
  (ct, gcmTag [leBytes 2 3, key] iv aad ct)

/-- AES-256-GCM: the plaintext, or none where the tag does not verify. -/
def gcmOpen (key iv aad ct tag : List Byte) : Option (List Byte) :=
  if gcmTag [leBytes 2 3, key] iv aad ct = tag then some (gcmText [leBytes 2 3, key] iv ct) else none

/-- ML-KEM: ciphertext and shared secret of an encapsulation to `ek`. -/
def kemEncaps (alg : Nat) (ek rand : List Byte) (n : Nat) : List Byte × List Byte :=
  (cryptoBytes .mlkemEncaps [leBytes 2 alg, ek, rand] n, cryptoBytes .mlkemSecret [leBytes 2 alg, ek, rand] 32)

/-- ML-KEM: shared secret of a ciphertext under the key pair of a seed. -/
def kemDecaps (alg : Nat) (seed ct : List Byte) : List Byte :=
  cryptoBytes .mlkemDecaps [leBytes 2 alg, materialFrom alg seed, ct] 32

/-- ML-DSA signature of a message with a context under the key pair of a seed. -/
def mldsaSigned (alg : Nat) (seed ctx msg rand : List Byte) (n : Nat) : List Byte :=
  cryptoBytes .mldsaSign [leBytes 2 alg, materialFrom alg seed, BitVec.ofNat 8 ctx.length :: ctx ++ msg, rand] n

/-- The 12-bit coefficients of an encapsulation key lie below q (FIPS 203 modulus check, Table 5.8). -/
def kemCoeffsOk : List Byte → Bool
  | a :: b :: c :: rest =>
    decide (a.toNat + b.toNat % 16 * 256 < 3329 ∧ b.toNat / 16 + c.toNat * 16 < 3329) && kemCoeffsOk rest
  | _ => true

/-- Field length of a curve in bytes. -/
def fieldLen (c : Nat) : Nat := if c = 0 then 32 else if c = 1 then 48 else 66

/-- Field prime of a curve. PRESUMED: FIPS 186-5, which the chapter cites (log 26). -/
def fieldPrime (c : Nat) : Nat :=
  if c = 0 then 2 ^ 256 - 2 ^ 224 + 2 ^ 192 + 2 ^ 96 - 1
  else if c = 1 then 2 ^ 384 - 2 ^ 128 - 2 ^ 96 + 2 ^ 32 - 1
  else 2 ^ 521 - 1

/-- Constant b of a curve. PRESUMED: FIPS 186-5 (log 26). -/
def curveB (c : Nat) : Nat :=
  if c = 0 then 0x5AC635D8AA3A93E7B3EBBD55769886BC651D06B0CC53B0F63BCE3C3E27D2604B
  else if c = 1 then
    0xB3312FA7E23EE7E4988E056BE3F82D19181D9C6EFE8141120314088F5013875AC656398D8A2ED19D2A85C8EDD3EC2AEF
  else
    0x0051953EB9618E1C9A1F929A21A0B68540EEA2DA725B99B315F3B8B489918EF109E156193951EC7E937B1652C0BD3BB1BF073573DF883D2C34F1EF451FD46B503F00

/-- A point lies on its curve: its first byte is 0x04 and y² = x³ − 3x + b (R489, Table 11.7). -/
def onCurve (c : Nat) (b : List Byte) : Bool :=
  let n := fieldLen c
  let p := fieldPrime c
  let x := beNat (slice b 1 n)
  let y := beNat (slice b (1 + n) n)
  b.head? == some 4 && y * y % p == (x * x * x + 3 * (p - x % p) + curveB c) % p

/-- P-256: the uncompressed public point of a scalar, and the x-coordinate that it shares with a point. -/
def p256Share (scalar : List Byte) : List Byte := 4 :: derivePublic 0x10 scalar 64
def p256Secret (scalar point : List Byte) : List Byte := cryptoBytes .ecPoint [leBytes 1 0, scalar, point] 32

/-- SHA-256 and SHA-384. -/
def sha256 (b : List Byte) : List Byte := cryptoBytes .sha2 [leBytes 1 1, b] 32
def sha384 (b : List Byte) : List Byte := cryptoBytes .sha2 [leBytes 1 2, b] 48

/-! ### The session key schedule (R565, Table 14.10) -/

/-- S₀ of the shared secrets and TH. -/
def firstSecret (kem ec th : List Byte) : List Byte := kmac256 (kem ++ ec) th 32 (ascii "WX-WSP-SECRET")

/-- S_g of S_(g−1). -/
def nextSecret (before : List Byte) (g : Nat) : List Byte :=
  kmac256 before (ascii "WX-REKEY" ++ leBytes 4 g) 32 (ascii "WX-WSP-SECRET")

/-- The direction keys and IVs of a generation: key and then IV from host to module, key and then IV from module to host. -/
def directionKeys (sg : List Byte) : List Byte :=
  let x := fun (n : Nat) (t : String) => kmac256 sg (ascii t) n (ascii "WX-WSP")
  x 32 "C2M-KEY" ++ x 12 "C2M-IV" ++ x 32 "M2C-KEY" ++ x 12 "M2C-IV"

/-! ### Protection of frames (R553) -/

/-- A direction's key and IV out of a generation's: from the host, or from the module. -/
def dirKey (keys : List Byte) (toModule : Bool) : List Byte × List Byte :=
  let k := if toModule then keys.take 44 else keys.drop 44
  (k.take 32, k.drop 32)

/-- Nonce of a sequence: the direction IV XOR `seq`, most significant byte first in bytes 4 to 11. -/
def frameNonce (iv : List Byte) (seq : Nat) : List Byte := xorBytes iv (zeros 4 ++ beBytes 8 seq)

/-- A protected body: ciphertext and tag, with the header as additional data. -/
def sealBody (keys : List Byte) (toModule : Bool) (h : FrameHdr) (body : List Byte) : List Byte × List Byte :=
  let k := dirKey keys toModule
  gcmSeal k.1 (frameNonce k.2 h.seq) (hdrBytes h) body

/-- The body of a protected frame; none where its tag does not verify. -/
def openBody (keys : List Byte) (toModule : Bool) (h : FrameHdr) (body tag : List Byte) : Option (List Byte) :=
  let k := dirKey keys toModule
  gcmOpen k.1 (frameNonce k.2 h.seq) (hdrBytes h) body tag

/-! ### The module's own keys (R440) -/

/-- Public keys: identity and attestation ML-DSA-44, backup ML-KEM-1024. -/
def OwnKeys.identityPk (k : OwnKeys) : List Byte := derivePublic 0x28 k.identity 1312
def OwnKeys.attestPk (k : OwnKeys) : List Byte := derivePublic 0x28 k.attest 1312
def OwnKeys.backupEk (k : OwnKeys) : List Byte := derivePublic 0x22 k.backup 1568

/-- The module's own keys; before PROVISIONING generates them there are none. -/
def ownKeys (s : State) : OwnKeys := s.ksc.own.getD {}

/-- Digest of the unit's own identity public key. -/
def ownIdentity (s : State) : List Byte := sha3_256 (ownKeys s).identityPk

/-- An encoded certificate of kind 0 identity, 1 attestation, 2 backup or 3 service: by its signer's key, its subject's public
key and the serial number (X.509 v3, log 15). -/
def certificate (s : State) (kind : Nat) (signer pk : List Byte) : List Byte :=
  cryptoBytes .cert [leBytes 1 kind, signer, pk, leBytes 16 s.serial.toNat] (Config.certLen kind)

/-- The identity certificate, signed by the Perzihal Root, whose key the module does not hold. -/
def identityCert (s : State) : List Byte := certificate s 0 [] (ownKeys s).identityPk

/-- The attestation and backup certificates, signed by the identity key. -/
def attestCert (s : State) : List Byte := certificate s 1 (ownKeys s).identity (ownKeys s).attestPk
def backupCert (s : State) : List Byte := certificate s 2 (ownKeys s).identity (ownKeys s).backupEk

/-- Certificates as ACCEPT carries them, each after its 4-byte length (Table 14.8). -/
def certChain (l : List (List Byte)) : List Byte := l.flatMap fun c => leBytes 4 c.length ++ c

/-- The module certificate chain of R441: attestation, backup, identity. -/
def moduleChain (s : State) : List Byte := certChain [attestCert s, backupCert s, identityCert s]

/-- Seed of Cox's service key (R733); before PROVISIONING generates it there is none. -/
def serviceSeed (s : State) : List Byte := s.lcf.serviceSeed.getD []

/-- The chain of a Hold-Water session: the service certificate, signed by the identity key, and then the identity
certificate (R732, R733). -/
def serviceChain (s : State) : List Byte :=
  certChain [certificate s 3 (ownKeys s).identity (derivePublic 0x28 (serviceSeed s) 1312), identityCert s]

/-- Public key of the attestation certificate of a received chain; none where the chain does not lead to the Perzihal Root
(R442, log 15). -/
def chainAttestPk (chain : List Byte) : Option (List Byte) :=
  if Config.cryptoOk .cert [chain] then some (cryptoBytes .certAttest [chain] 1312) else none

/-- Digest of the identity public key that a received chain holds (log 15). -/
def chainIdentity (chain : List Byte) : List Byte := sha3_256 (cryptoBytes .certIdentity [chain] 1312)

end Sys2Proof.Machine
end

