-- ==== Sys2Proof/Machine/Drbg.lean ====
section
/-! DEFINITION. The DRBG instances (R528 to R532): CTR_DRBG of NIST SP 800-90A over AES-256 with the derivation function and
without prediction resistance, generate requests, and the grants of the system DRBG. PRESUMED: the algorithm's steps are the
standard's (log 13). -/

namespace Sys2Proof.Machine

/-! ### CTR_DRBG -/

/-- One block under a key. -/
def aes256 (key b : List Byte) : List Byte := encBlock [leBytes 2 3, key] b

/-- V + 1, most significant byte first. -/
def nextV (v : List Byte) : List Byte := beBytes 16 (beNat v + 1)

/-- `n` blocks of output from V on, and the last V. -/
def ctrBlocks (key : List Byte) : Nat → List Byte → List Byte × List Byte
  | 0, v => ([], v)
  | n + 1, v =>
    let r := ctrBlocks key n (nextV v)
    (aes256 key (nextV v) ++ r.1, r.2)

/-- CTR_DRBG_Update: the new key and V. -/
def ctrUpdate (data key v : List Byte) : List Byte × List Byte :=
  let x := xorBytes (ctrBlocks key 3 v).1 data
  (x.take 32, x.drop 32)

/-- BCC: the chaining value of whole blocks. -/
def bcc (key : List Byte) (data : List Byte) : List Byte :=
  (List.range (data.length / 16)).foldl (fun c i => aes256 key (xorBytes c (slice data (16 * i) 16))) (zeros 16)

/-- Block_Cipher_df to 48 bytes. -/
def ctrDf (input : List Byte) : List Byte :=
  let body := beBytes 4 input.length ++ beBytes 4 48 ++ input ++ [0x80]
  let data := body ++ zeros (ceilDiv body.length 16 * 16 - body.length)
  let first := (List.range 32).map fun i => BitVec.ofNat 8 i
  let t := (List.range 3).flatMap fun i => bcc first (beBytes 4 i ++ zeros 12 ++ data)
  let key := t.take 32
  let x := aes256 key (t.drop 32)
  let y := aes256 key x
  x ++ y ++ aes256 key y

/-- Instantiation of instance `n` of a die (R528): one seed as entropy, the first half of another as nonce. -/
def Drbg.instantiate (d : Drbg) (serial : List Byte) (n : Nat) (entropy second : List Byte) : Drbg :=
  let k := ctrUpdate (ctrDf (entropy ++ second.take 16 ++ serial ++ leBytes 1 n)) (zeros 32) (zeros 16)
  { d with state := .serving, key := k.1, v := k.2, reqs := 0 }

/-- Reseed with one seed and no additional input. -/
def Drbg.reseed (d : Drbg) (entropy : List Byte) : Drbg :=
  let k := ctrUpdate (ctrDf entropy) d.key d.v
  { d with key := k.1, v := k.2, reqs := 0, reseeds := satInc 8191 d.reseeds }

/-- Generate `n` bytes. -/
def Drbg.generate (d : Drbg) (n : Nat) : List Byte × Drbg :=
  let b := ctrBlocks d.key (ceilDiv n 16) d.v
  let k := ctrUpdate (zeros 48) d.key b.2
  (b.1.take n, { d with key := k.1, v := k.2, reqs := d.reqs + 1 })

/-! ### Generate requests (R529) -/

/-- An instance. -/
def drbgOf (s : State) (n : Nat) : Drbg := vget s.rng.drbg n {}

/-- Change an instance. -/
def setDrbg (s : State) (n : Nat) (d : Drbg) : State := { s with rng := { s.rng with drbg := vset s.rng.drbg n d } }

/-- The oldest seed reseeds an instance. -/
def reseedNow (s : State) (n : Nat) : Option State := match s.rng.seedBuf with
  | seed :: rest => some (setDrbg { s with rng := { s.rng with seedBuf := rest } } n ((drbgOf s n).reseed seed))
  | [] => none

/-- An instance can serve its next request: it reseeds before it where that is due, for which it needs a seed. -/
def drbgReady (s : State) (n : Nat) : Bool :=
  (drbgOf s n).state == .serving && (decide ((drbgOf s n).reqs < 65536) || !s.rng.seedBuf.isEmpty)

/-- One generate request of at most 4,096 bytes. -/
def drbgRequest (s : State) (n len : Nat) : Option (List Byte × State) :=
  if drbgReady s n = false then none
  else (if (drbgOf s n).reqs < 65536 then some s else reseedNow s n).map fun s =>
    let r := (drbgOf s n).generate len
    (r.1, setDrbg s n r.2)

/-- `k` requests for `len` bytes together. -/
def drbgMany (n : Nat) : Nat → State → Nat → Option (List Byte × State)
  | 0, s, _ => some ([], s)
  | k + 1, s, len => (drbgRequest s n (min len 4096)).bind fun r =>
    (drbgMany n k r.2 (len - 4096)).map fun q => (r.1 ++ q.1, q.2)

/-- Draw `len` bytes from instance `n`, as one request for each 4,096 of them; none while it cannot serve. -/
def drbgDraw (s : State) (n len : Nat) : Option (List Byte × State) := drbgMany n (max 1 (ceilDiv len 4096)) s len

/-! ### The wires of the system DRBG (R530) -/

/-- Place of a wire in the round robin. -/
def Wire.index : Wire → Nat
  | .ksc => 0 | .bne => 1 | .lte => 2 | .qrm => 3 | .mec => 4 | .data => 5 | .ports => 6 | .unit => 7

/-- How many places after the last granted wire a wire stands. -/
def turnsTo (s : State) (w : Wire) : Nat := (w.index + 7 - s.rng.last.index) % 8

/-- It is the wire's turn: no wire that waits stands before it. A wait that is not renewed within 100 µs no longer counts (log
13). -/
def wireTurn (s : State) (w : Wire) : Bool :=
  s.rng.waits.all fun x => x.1 == w || drawLate s x.2 || decide (turnsTo s w < turnsTo s x.1)

/-- The system DRBG can serve. -/
def sysReady (s : State) : Bool := drbgReady s s.variant.sysUnit

/-- A wire draws `n` bytes from the system DRBG (R42, R530, Table 13.3): one grant. -/
def sysDraw (s : State) (w : Wire) (n : Nat) : Option (List Byte × State) :=
  if wireTurn s w then
    (drbgDraw s s.variant.sysUnit n).map fun r =>
      (r.1, { r.2 with rng := { r.2.rng with last := w, waits := r.2.rng.waits.filter fun x => x.1 != w } })
  else none

/-- A wire whose draw is not served waits for its turn. -/
def sysWait (s : State) (w : Wire) : State :=
  if (sysReady s && wireTurn s w) || s.rng.waits.any (fun x => x.1 == w && !drawLate s x.2) then s
  else { s with rng := { s.rng with waits := (s.rng.waits.filter fun x => x.1 != w) ++ [(w, now s)] } }

end Sys2Proof.Machine
end

