-- ==== Sys2Proof/Machine/Drill.lean ====
section
/-! DEFINITION. Drill (chapter 20): what an injector does to each frame that passes it (R775 to R780). Its settings are held
per injector in `regs`, under the address of the register with the injector number above bit 24. -/

namespace Sys2Proof.Machine

/-- Address under which a register that `DRL_SEL` selects is held for injector `i`. -/
def drlAddr (i off : Nat) : Nat := 0x00140000 + off + (i + 1) * 2 ^ 24

/-- Stored bits of an injector's register; before any write, its reset value. -/
def drlReg (s : State) (i off : Nat) : BitVec 32 :=
  match alGet s.regs (drlAddr i off) with
  | some v => v
  | none => match regDef (0x00140000 + off) with
    | some r => r.resetVal
    | none => 0

/-- A field of an injector's register. -/
def drlFld (s : State) (i off lo n : Nat) : Nat := (drlReg s i off).toNat / 2 ^ lo % 2 ^ n

/-- Injector state. -/
def injOf (s : State) (i : Nat) : Injector := vget s.drl.inj i {}

/-- Change an injector. -/
def modInj (s : State) (i : Nat) (f : Injector → Injector) : State :=
  { s with drl := { s.drl with inj := vset s.drl.inj i (f (injOf s i)) } }

/-- Disarm an injector: it stops selecting (R780). -/
def disarm (s : State) (i : Nat) : State :=
  modInj { s with regs := alSet s.regs (drlAddr i 0x010) (insertBits (drlReg s i 0x010) 0 1 0) } i fun x =>
    { x with armed := false }

/-- The frame passes the session filter (R777); `sess` is the session of a protected frame. -/
def passesFilter (s : State) (i : Nat) (sess : Option Nat) : Bool :=
  drlFld s i 0x010 5 1 == 0 || sess == some (drlReg s i 0x014).toNat

/-- The trigger selects a frame that passed the filter (R777). -/
def triggers (s : State) (i : Nat) : Bool × State :=
  if drlFld s i 0x010 4 1 = 1 then
    let n := drlFld s i 0x018 0 16
    if n = 0 then (false, s)
    else
      let s := { s with regs := alSet s.regs (drlAddr i 0x018) (BitVec.ofNat 32 (n - 1)) }
      (true, if n = 1 then disarm s i else s)
  else
    let v := Config.lfsrNext (injOf s i).lfsr
    (decide (v.toNat % 2 ^ clamp 1 16 (drlFld s i 0x010 6 5) = 0), modInj s i fun x => { x with lfsr := v })

/-- What an injector does to a frame (R776); positions are drawn from the LFSR. -/
inductive DrillAct where
  | pass | drop | corrupt (bit : Nat) | duplicate | hold
deriving DecidableEq, Repr

/-- The Log record of the injections of an injector's millisecond, once that has ended (R780). -/
def logInjections (s : State) (i : Nat) : State :=
  let x := injOf s i
  if x.drops + x.corrupts + x.others = 0 ∨ now s / tickMs ≤ x.ms then s
  else logEvent (modInj s i fun x => { x with drops := 0, corrupts := 0, others := 0 }) 0x1401 0x14 1
    [i, x.drops, x.corrupts, x.others]

/-- Count an injection; those of an earlier millisecond have their record first. -/
def noteInjection (s : State) (i : Nat) (a : DrillAct) : State :=
  modInj (logInjections s i) i fun x => let x := { x with ms := now s / tickMs }; match a with
    | .pass => x
    | .drop => { x with injected := satInc 0xFFFFFFFF x.injected, drops := x.drops + 1 }
    | .corrupt _ => { x with injected := satInc 0xFFFFFFFF x.injected, corrupts := x.corrupts + 1 }
    | .duplicate | .hold => { x with injected := satInc 0xFFFFFFFF x.injected, others := x.others + 1 }

/-- Decide on one frame of `bits` bits in direction `dir` (0 receive, 1 transmit). -/
def drillDecide (s : State) (i dir : Nat) (sess : Option Nat) (bits : Nat) : DrillAct × State :=
  if ((injOf s i).armed && drlFld s i 0x010 1 1 == dir && passesFilter s i sess) = false then (.pass, s)
  else
    let (hit, s) := triggers s i
    if hit = false then (.pass, s)
    else match drlFld s i 0x010 2 2 with
      | 0 => (.drop, noteInjection s i .drop)
      | 1 =>
        let v := Config.lfsrNext (injOf s i).lfsr
        let s := modInj s i fun x => { x with lfsr := v }
        let a := DrillAct.corrupt (v.toNat % max 1 bits)
        (a, noteInjection s i a)
      | 2 => (.duplicate, noteInjection s i .duplicate)
      | _ => if 8 ≤ (injOf s i).held.length then (.pass, s) else (.hold, noteInjection s i .hold)

/-- Hold a frame for reordering. -/
def holdFrame (s : State) (i : Nat) (f : DrillFrame) : State :=
  modInj s i fun x => { x with held := x.held ++ [{ frame := f, left := clamp 1 8 (drlFld s i 0x010 11 4), since := now s }] }

/-- A further frame of the direction has passed: the held frames that it releases, in their order. -/
def passedOne (s : State) (i : Nat) : List DrillFrame × State :=
  let l := (injOf s i).held.map fun h => { h with left := h.left - 1 }
  ((l.filter (·.left == 0)).map (·.frame), modInj s i fun x => { x with held := l.filter (·.left != 0) })

/-- A released frame of the transmit direction leaves. -/
def sendHeld (s : State) : DrillFrame → State
  | .send o => emit s o
  | _ => s

/-- Bits of a frame to be sent, as far as a flipped bit can fall. -/
def outBits : Out → Nat
  | .frame _ _ _ _ body tag => 8 * (40 + body.length + tag.length)
  | .plp _ _ content => 64 * (1 + content.length)
  | _ => 8

/-- A frame to be sent passes injector `i` (R775). -/
def drillTx (s : State) (i : Nat) (sess : Option Nat) (o : Out) : State :=
  let tx := drlFld s i 0x010 1 1 == 1
  let (a, s) := drillDecide s i 1 sess (outBits o)
  let pass := fun (s : State) (l : List Out) =>
    let s := l.foldl emit s
    if tx then let (out, s) := passedOne s i; out.foldl sendHeld s else s
  match a with
  | .pass => pass s [o]
  | .drop => s
  | .corrupt b => pass s [.corrupt b o]
  | .duplicate => pass s [o, o]
  | .hold => holdFrame s i (.send o)

/-- Flip bit `b` of an `n`-bit field. -/
def flip (v b : Nat) : Nat := if bitOf v b then v - 2 ^ b else v + 2 ^ b

/-- Flip bit `b` of a byte string. -/
def flipBytes (l : List Byte) (b : Nat) : List Byte :=
  l.set (b / 8) (BitVec.ofNat 8 (flip (l.getD (b / 8) 0).toNat (b % 8)))

/-- A received frame with one bit inverted. A protected one reaches its AEAD check and fails it (R776): whichever bit it is,
its tag no longer fits. -/
def flipFrame (f : Frame) (b : Nat) : Frame :=
  if f.tag.isEmpty then
    let w := flipBytes (hdrBytes f.hdr ++ f.body) b
    { f with hdr := hdrOf w, body := w.drop 40 }
  else { f with tag := flipBytes f.tag (b % (8 * f.tag.length)) }

/-- Release every held frame of an injector. -/
def takeHeld (s : State) (i : Nat) : List DrillFrame × State :=
  ((injOf s i).held.map (·.frame), modInj s i fun x => { x with held := [] })

/-- The permits that `p` picks by their end are over (R779, R780): every injector they name stops; held frames to be sent
leave at once, and held received frames are due for release. -/
def endPermitsAt (s : State) (p : Nat → Bool) : State :=
  (List.range 5).foldl (fun s i =>
    if (injOf s i).permit.any p = false then s
    else
      let s := disarm (modInj s i fun x => { x with permit := none }) i
      let out := (injOf s i).held.filter fun h => match h.frame with | .send _ => true | _ => false
      let s := modInj s i fun x => { x with
        held := (x.held.filter fun h => match h.frame with | .send _ => false | _ => true).map fun h =>
          { h with left := 0 } }
      out.foldl (fun s h => sendHeld s h.frame) s) s

/-- Every Drill permit ends. -/
def endPermits (s : State) : State := endPermitsAt s fun _ => true

end Sys2Proof.Machine
end

