-- ==== Sys2Proof/Machine/Net.lean ====
section
/-! DEFINITION. Sessions as the module sends on them: frames, acknowledgement state, replies and their retention, closing
(chapters 14 and 15). -/

namespace Sys2Proof.Machine

/-- Address of a register in the window of host port `p`. -/
def hptAddr (p off : Nat) : Nat := 0x000B0000 + 0x4000 * p + off

/-- A field of a host port's register. The management port (4), which has no registers, uses what its configuration record holds
(R548), and else the reset values (15, "Conversation registers"). -/
def hptFld (s : State) (p off lo n : Nat) : Nat :=
  if p < 4 then fld s (hptAddr p off) lo n
  else match alGet s.net.record (p, off), regDef (hptAddr 0 off) with
    | some v, _ => v.toNat / 2 ^ lo % 2 ^ n
    | none, some r => r.resetVal.toNat / 2 ^ lo % 2 ^ n
    | none, none => 0

/-- Offsets that the boot ROM loads from the configuration record before BINNACLE_CHECK ends: `mtu` and the prefix lengths, the
gateways and the unit addresses (R548). -/
def bootLoads (off : Nat) : Bool :=
  off == 0x010 || off == 0x020 || decide (0x034 ≤ off ∧ off ≤ 0x040) || decide (0x088 ≤ off ∧ off ≤ 0x098)

/-- The other RWE registers of a port, which Cox loads at COX_BOOT. -/
def coxLoads (off : Nat) : Bool :=
  off == 0x004 || off == 0x00C || off == 0x01C || decide (0x024 ≤ off ∧ off ≤ 0x030) || off == 0x068 || off == 0x06C

/-- Load the registers of the host ports that `p` picks from the configuration record; `en` stays 0 (R583). -/
def loadRecord (p : Nat → Bool) (s : State) : State :=
  s.net.record.foldl (fun s r =>
    if p r.1.2 = true ∧ r.1.1 < 4 then
      store s (hptAddr r.1.1 r.1.2) (if r.1.2 = 4 then insertBits r.2 0 1 0 else r.2)
    else s) s

/-- Load the VLAN entries of every port. -/
def loadVlans (s : State) : State :=
  { s with net := { s.net with ports := Vector.ofFn fun i : Fin 5 =>
      { s.net.ports.get i with vlan := s.net.vlanRecord.get i } } }

/-- A changed setting goes into the configuration record (R548). -/
def noteRecord (s : State) (p off : Nat) : State :=
  if bootLoads off || coxLoads off then
    { s with net := { s.net with record := alSet s.net.record (p, off) (stored s (hptAddr p off)) } }
  else s

/-- `mtu` in force (Table 14.17). -/
def mtuOf (s : State) (p : Nat) : Nat := clamp 1280 9194 (hptFld s p 0x010 0 14)

/-- `idle_s` in ticks (Table 15.8). -/
def idleTicks (s : State) (p : Nat) : Nat := clamp 3 3600 (hptFld s p 0x068 0 12) * tickS

/-- `rx_window` (Table 15.8). -/
def rxWindow (s : State) (p : Nat) : Nat := clamp 16 1024 (hptFld s p 0x068 16 11)

/-- `retain_ms` in ticks (Table 15.8). -/
def retainTicks (s : State) (p : Nat) : Nat := clamp 100 60000 (hptFld s p 0x06C 0 16) * tickMs

/-- `ack_delay` in ticks (Table 15.8). -/
def ackDelay (s : State) (p : Nat) : Nat := clamp 1 200 (hptFld s p 0x06C 16 8) * 16

/-- Port state. -/
def portOf (s : State) (p : Nat) : Port := vget s.net.ports p {}

/-- Change a port's state. -/
def modPort (s : State) (p : Nat) (f : Port → Port) : State :=
  { s with net := { s.net with ports := vset s.net.ports p (f (portOf s p)) } }

/-- Session of an ID. -/
def findSess (s : State) (id : Nat) : Option Session := s.net.sessions.find? (fun x => x.id == id)

/-- Change a session. -/
def modSess (s : State) (id : Nat) (f : Session → Session) : State :=
  { s with net := { s.net with sessions := s.net.sessions.map fun x => if x.id = id then f x else x } }

/-- An established session in any of its later states. -/
def Session.live (x : Session) : Bool := x.state != .halfOpen

/-- Window the module advertises (R594): 0 while more than 1 MiB of the session's replies wait. -/
def advertised (s : State) (x : Session) : Nat :=
  if 1048576 < (x.again ++ x.outq).foldl (fun n r => n + 24 + r.payload.length) 0 then 0 else rxWindow s x.port

/-- Selective-acknowledgement bitmap (R585). -/
def sackOf (x : Session) : Nat :=
  (List.range 32).foldl (fun n i => if x.rxSet.contains (x.rxCum + 1 + i) then n + 2 ^ i else n) 0

/-- Generation under which the module sends sequence `q` (R574). -/
def txGen (x : Session) (q : Nat) : Nat :=
  match x.txSwitch with
  | some w => if w ≤ q then x.gen else x.gen - 1
  | none => x.gen

/-- Header of a protected frame (Table 14.2). -/
def frameHdr (s : State) (x : Session) (typ flags seq gen plen : Nat) : FrameHdr :=
  { typ := typ, flags := flags + 2 * (gen % 2), sess := x.id, seq := seq, cumAck := x.rxCum, sack := sackOf x,
    rwnd := advertised s x, plen := plen, stamp := s.mer.t }

/-- Unacknowledged frames that a sender may hold (R633). -/
def plpLimit : Nat := 4096

/-- Send a PLP frame (R633, R652): it takes the next sequence and waits for its acknowledgement. -/
def sendPlp (s : State) (typ : Nat) (content : List Nat) : State :=
  if s.prl.paired = false ∨ (blockEn s 12 0 = false ∧ typ ≠ 1) then s
  else
    let q := s.prl.txSeq
    let s := if s.prl.unacked.length < plpLimit then drillTx s 4 none (.plp typ q content) else s
    { s with prl := { s.prl with
        txSeq := q + 1
        ackAt := if s.prl.unacked.isEmpty then now s else s.prl.ackAt
        unacked := s.prl.unacked ++ [(q, typ, content)]
        lastTx := now s } }

/-- IP and VLAN fields of a frame (R550): `c0_dscp` where it carries a class-0 reply, `dscp` elsewhere; on a VLAN the `pcp`
of its entry. -/
def ipTx (s : State) (p : Nat) (path : Path) (class0 : Bool) : IpTx :=
  { dscp := hptFld s p 0x00C (if class0 then 16 else 22) 6
    pcp := match path.vlan with
      | none => 0
      | some id => match (portOf s p).vlan.toList.find? fun e => bitOf e 12 && e % 4096 == id with
        | some e => e / 2 ^ 13 % 8
        | none => 0 }

/-- The transmit gate of a port is open (R626, R703): a host port sends only while `service` is 1 and the unit's own
PAIR_ALIVE_OUT is asserted. -/
def txOpen (s : State) (p : Nat) : Bool := p == 4 || ((portOf s p).service && s.prl.fence)

/-- A frame leaves where its port's gate is open. -/
def transmit (s : State) (p : Nat) (o : Out) (protectedOf : Option Nat := none) : State :=
  if txOpen s p = false then s else if p < 4 then drillTx s p protectedOf o else emit s o

/-- A session's protected frame as it leaves: the header, and the body sealed under the key of generation `g` (R553). -/
def wireFrame (s : State) (x : Session) (typ flags seq g : Nat) (body : List Byte) (class0 : Bool) (keys : List Byte) : Out :=
  let h := frameHdr s x typ flags seq g body.length
  let c := sealBody keys false h body
  .frame x.port x.path (ipTx s x.port x.path class0) h c.1 c.2

/-- Put a new protected frame on the wire (R584): it takes the next sequence, waits for its acknowledgement, and serves
as the acknowledgement due (R588). No frame of a rebuild pause is kept (R676). -/
def sendFrame (s : State) (id typ flags : Nat) (body : List Byte) (replies : List Nat := []) (carries : Option Reply := none) :
    State :=
  match findSess s id with
  | none => s
  | some x =>
    let q := x.txSeq
    let g := txGen x q
    let class0 := (carries.map (·.class0)).getD false
    let f : TxFrame :=
      { seq := q, typ := typ, flags := flags, body := body, gen := g, sentAt := now s, rtoAt := now s + x.rto,
        replies := replies, carries := carries, class0 := class0 }
    let s := transmit s x.port (wireFrame s x typ flags q g body class0 ((alGet x.keys g).getD [])) (some x.id)
    modSess s id fun x =>
      { x with
        txSeq := q + 1
        genTx := if g = x.gen then x.genTx + 1 else x.genTx
        unacked := if s.mec.paused then x.unacked else x.unacked ++ [f]
        lastTx := now s
        ackDue := none
        advWin := advertised s x }

/-- Send an unacknowledged frame again (R554): a newer header, the same body and sequence. One whose generation's keys are
erased can leave no more (R576). -/
def resendFrame (s : State) (id seq : Nat) : State :=
  match findSess s id with
  | none => s
  | some x => match x.unacked.find? (fun f => f.seq == seq) with
    | none => s
    | some f => match alGet x.keys f.gen with
      | none => s
      | some k =>
        let s := transmit s x.port (wireFrame s x f.typ f.flags f.seq f.gen f.body f.class0 k) (some x.id)
        let s := modPort s x.port fun p => { p with retx := satInc 0xFFFFFFFF p.retx }
        modSess s id fun x =>
          { x with
            unacked := x.unacked.map fun g => if g.seq = seq then { g with resent := true, rtoAt := now s + x.rto } else g
            lastTx := now s
            ackDue := none
            advWin := advertised s x }

/-- Largest DATA body on a session's path (Table 14.6). -/
def bodyCap (s : State) (x : Session) : Nat :=
  mtuOf s x.port - (if x.path.v6 then 40 else 20) - 8 - 40 - 16

/-- Reply record: header of Table 14.5 and payload padded to a multiple of 8 bytes. -/
def replyRecord (r : Reply) : List Byte :=
  leBytes 4 r.reqId ++ leBytes 2 r.status ++ leBytes 2 r.rflags ++ leBytes 8 r.csn ++ leBytes 2 r.payload.length
    ++ zeros 6 ++ r.payload ++ zeros ((8 - r.payload.length % 8) % 8)

/-- A message cut into `n` pieces of `w` bytes. -/
def pieces (w : Nat) (b : List Byte) : Nat → List (List Byte)
  | 0 => []
  | n + 1 => b.take w :: pieces w (b.drop w) n

/-- Fragment bodies of a message (R556). -/
def fragments (msg cap : Nat) (b : List Byte) : List (List Byte) :=
  let w := cap - 8
  let n := ceilDiv b.length w
  ((pieces w b n).zip (List.range n)).map fun p =>
    leBytes 4 msg ++ leBytes 1 p.2 ++ leBytes 1 n ++ zeros 2 ++ p.1

/-- Bodies of the DATA frames that carry a reply, and whether they are fragments (R562). -/
def replyBodies (s : State) (x : Session) (r : Reply) : Bool × List (List Byte) :=
  let rec_ := replyRecord r
  if rec_.length ≤ bodyCap s x then (false, [rec_]) else (true, fragments r.reqId (bodyCap s x) rec_)

/-- The session may send `n` more frames: its anchor is mirrored (R571), no RESYNC waits for its answer (R611), and a REKEY that
waits keeps the sequence before the one that its anchor names (R574, log 33). -/
def roomFor (x : Session) (n : Nat) : Bool :=
  x.anchored && match x.awaits with
    | none => true
    | some (.rekey sw) => decide (x.txSeq + n < sw)
    | some (.resync _) => false

/-- The session may send a frame. -/
def maySend (x : Session) : Bool := roomFor x 1

/-- A new frame of a type other than ACK fits the host's window (R593). -/
def winOpen (x : Session) : Bool := decide (x.txSeq < x.peerAck + x.peerWin)

/-- The session may send DATA (Table 15.2). -/
def mayData (x : Session) : Bool := (x.state == .established || x.state == .rekeying) && maySend x

/-- Retention entry of a request (R596). -/
def findRet (s : State) (sess req : Nat) : Option Retained :=
  s.net.retention.find? (fun r => r.sess == sess && r.reqId == req)

/-- Change a retention entry. -/
def modRet (s : State) (sess req : Nat) (f : Retained → Retained) : State :=
  { s with net := { s.net with retention := s.net.retention.map fun r =>
      if r.sess = sess ∧ r.reqId = req then f r else r } }

/-- Remove a session's retention entries (R599). -/
def dropRet (s : State) (sess : Nat) : State :=
  { s with net := { s.net with retention := s.net.retention.filter (fun r => r.sess != sess) } }

/-- Put a reply in frames (R562), all of whose sequences the host's window admits (R593). `mark` says that the last of them is
the one whose acknowledgement R599 names: the first to carry the reply of its retention entry whole. -/
def sendReplyNow (s : State) (id : Nat) (x : Session) (r : Reply) (mark : Bool) : State :=
  let (frag, bodies) := replyBodies s x r
  let last := bodies.length - 1
  let s := (bodies.zip (List.range bodies.length)).foldl (fun s b =>
    sendFrame s id 4 (b2n frag) b.1 (if mark && b.2 == last then [r.reqId] else []) (some r)) s
  if r.rflags / 2 % 2 = 1 then modPort s x.port fun p => { p with replayed := satInc 65535 p.replayed } else s

/-- The request's own reply makes its entry REPLIED when it is first sent (R596); repetitions that waited follow at once with
REPLAYED set (Table 15.1). -/
def markReplied (s : State) (id : Nat) (r : Reply) : State × List Reply :=
  match findRet s id r.reqId with
  | some e =>
    if e.reply.isNone && r.own then
      (modRet s id r.reqId fun e => { e with reply := some r, sentAt := some (now s), again := 0 },
        List.replicate e.again { r with rflags := r.rflags / 2 ^ 2 * 2 ^ 2 + r.rflags % 2 + 2, own := false })
    else (s, [])
  | none => (s, [])

/-- The entry of a reply still waits for the acknowledgement of a frame with it (R599). -/
def unheard (s : State) (id : Nat) (r : Reply) : Bool :=
  r.own && (findRet s id r.reqId).any fun e => !e.acked

/-- Send the replies that wait, in their order, those of settled frames first (R608), as far as the host's window admits whole
replies (R593). -/
def flushQueue (s : State) (id : Nat) : Nat → State
  | 0 => s
  | n + 1 =>
    match findSess s id with
    | none => s
    | some x =>
      if mayData x = false then s
      else match x.again ++ x.outq with
        | [] => s
        | r :: _ =>
          let frames := (replyBodies s x r).2.length
          if x.peerAck + x.peerWin < x.txSeq + frames ∨ roomFor x frames = false then s
          else
            let old := !x.again.isEmpty
            let s := modSess s id fun x => if old then { x with again := x.again.tail } else { x with outq := x.outq.tail }
            let s := sendReplyNow s id x r (unheard s id r)
            let (s, again) := if old then (s, []) else markReplied s id r
            let s := modSess s id fun x => { x with outq := again ++ x.outq }
            flushQueue s id n

/-- CLOSE body (Table 14.9). -/
def closeBody (status reason : Nat) : List Byte := leBytes 2 status ++ leBytes 1 reason ++ zeros 5

/-- The CLOSE of a session that closes leaves once its anchor is mirrored and the host's window admits it (R571, R593, log 68);
the time of R604 runs from then. -/
def sendClose (s : State) (id : Nat) : State :=
  match findSess s id with
  | none => s
  | some x => match x.closeWith with
    | some (st, r) =>
      if maySend x && winOpen x then
        modSess (sendFrame s id 8 0 (closeBody st r)) id fun y =>
          { y with closeWith := none, closeSeq := some x.txSeq, closeAt := now s }
      else s
    | none => s

/-- REKEY and REKEY_ACK body (R574, R575). -/
def rekeyBody (g sw : Nat) : List Byte := leBytes 4 g ++ zeros 4 ++ leBytes 8 sw

/-- RESYNC body (chapter 15, "Resynchronisation"). -/
def resyncBody (g role cause : Nat) : List Byte := leBytes 4 g ++ leBytes 1 role ++ leBytes 1 cause ++ zeros 2

/-- Generation `g` of a session becomes known: its S_g, and its direction keys in the AEAD unit beside those of generation `old`
(R565, R576). -/
def withGen (x : Session) (g : Nat) (sg : List Byte) (old : Option Nat) : Session :=
  { x with
    gen := g, sg := sg, oldGen := old
    keys := (x.keys.filter fun k => old == some k.1) ++ [(g, directionKeys sg)] }

/-- REKEY leaves under g and names `sw` as the first sequence under g + 1 (R574). -/
def sendRekey (s : State) (id sw : Nat) : State :=
  match findSess s id with
  | none => s
  | some x =>
    let s := sendFrame (modSess s id fun x => { x with awaits := none, mirrored := false }) id 6 0 (rekeyBody (x.gen + 1) sw)
    modSess s id fun x =>
      { withGen x (x.gen + 1) (nextSecret x.sg (x.gen + 1)) (some x.gen) with
        state := .rekeying, txSwitch := some sw, rxSwitch := none, genTx := 0, rekeyAt := some (now s), rekeyReqAt := none }

/-- Replies that frames carry, each once, in the order of the frames. -/
def carried : List TxFrame → List Reply
  | [] => []
  | f :: l =>
    let rest := carried l
    match f.carries with
    | some r => if rest.contains r then rest else r :: rest
    | none => rest

/-- The answer to a host's RESYNC (R608, R611): the records of unacknowledged DATA frames go out again. -/
def answerResync (s : State) (id cause : Nat) : State :=
  match findSess s id with
  | none => s
  | some x =>
    let s := modSess s id fun x =>
      { x with
        unacked := [], txSwitch := some x.txSeq, genTx := 0, awaits := none, mirrored := false
        again := x.again ++ carried x.unacked, resyncAt := some (now s), genStart := now s }
    let s := sendFrame s id 9 0 (resyncBody x.gen 1 cause)
    modPort s x.port fun p => { p with resyncs := satInc 65535 p.resyncs }

/-- What waited for an anchor goes on once that is mirrored and the host's window admits it (R571, R593); nothing but the CLOSE
where the session closes. -/
def goOn (s : State) (id : Nat) : State :=
  match findSess s id with
  | none => s
  | some x =>
    if (x.anchored && x.mirrored) = false then s
    else match x.awaits with
      | none => s
      | some _ =>
        if x.state = .closing then modSess s id fun x => { x with awaits := none, mirrored := false }
        else if winOpen x = false then s
        else match x.awaits with
          | some (.rekey sw) =>
            if x.state = .established then sendRekey s id sw else modSess s id fun x => { x with awaits := none, mirrored := false }
          | some (.resync cause) => answerResync s id cause
          | none => s

/-- Send what a session's window admits. -/
def flush (s : State) (id : Nat) : State :=
  let s := sendClose (goOn s id) id
  match findSess s id with
  | some x => flushQueue s id (x.again.length + 2 * x.outq.length + s.net.retention.length + 1)
  | none => s

/-- A reply for a session that has ended is discarded and counted (R605). -/
def loseReplies (s : State) (n : Nat) : State :=
  { s with net := { s.net with lostReplies := satInc 1023 s.net.lostReplies n } }

/-- Queue a reply on its session (R39). -/
def queueReply (s : State) (sess : Nat) (r : Reply) : State :=
  match findSess s sess with
  | none => loseReplies s 1
  | some x =>
    if x.state = .halfOpen ∨ x.state = .closing then loseReplies s 1
    else flush (modSess s sess fun x => { x with outq := x.outq ++ [{ r with waiting := now s }] }) sess

/-- Commit of a CSN. -/
def commitOf (s : State) (csn : Nat) : Option Commit := s.ksc.commits.find? (fun m => m.csn == csn)

/-- A held reply may leave: its commit is visible (R55) and its retention entry is mirrored while a standby is joined
(R600). -/
def heldReady (s : State) (h : HeldReply) : Bool :=
  decide (h.csn ≤ s.ksc.v) &&
    (!s.prl.joined || (match findRet s h.sess h.reply.reqId with | some e => e.mirrored | none => true))

/-- The reply as it leaves: `OK_SINGLE` and SINGLE where the commit became visible with no standby joined (R22, R57). -/
def singled (s : State) (h : HeldReply) : Reply :=
  let single := match commitOf s h.csn with | some m => m.single | none => false
  if single then
    { h.reply with
      status := if h.reply.status = 0 then St.okSingle else h.reply.status
      rflags := h.reply.rflags + (1 - h.reply.rflags % 2) }
  else h.reply

/-- Release the held replies that may leave (R55, R600). -/
def releaseHeld (s : State) : State :=
  let go := s.net.held.filter (heldReady s)
  let s := { s with net := { s.net with held := s.net.held.filter fun h => !heldReady s h } }
  go.foldl (fun s h => queueReply s h.sess (singled s h)) s

/-- Content of a RETAIN: an entry with its reply, or its removal (Table 16.5). -/
def retainContent (sess : Nat) (e : Retained) (r : Reply) : List Nat :=
  sess :: r.reqId :: 1 :: (e.digest ++ leBytes 2 r.status ++ leBytes 1 r.rflags ++ leBytes 8 r.csn ++ r.payload).map (·.toNat)

/-- Mirror the retention entry of a committed chain with its reply (R600, R636). -/
def mirrorRet (s : State) (sess : Nat) (r : Reply) : State :=
  match findRet s sess r.reqId with
  | some e => if s.prl.joined && !e.mirrored then sendPlp s 5 (retainContent sess e r) else s
  | none => s

/-- A standby has joined: the entries of the replies held go out to it (R600). -/
def mirrorHeld (s : State) : State := s.net.held.foldl (fun s h => mirrorRet s h.sess h.reply) s

/-- Hand a chain's reply to its port: held until its commit is visible (R55, R267). -/
def handReply (s : State) (sess : Nat) (committed : Option Nat) (r : Reply) : State :=
  match committed with
  | none => queueReply s sess r
  | some n =>
    let s := mirrorRet s sess r
    releaseHeld { s with net := { s.net with held := s.net.held ++ [{ csn := n, sess := sess, reply := r }] } }

/-- A refusal or answer with no payload and no commit; `own` says that it answers an item (R596). -/
def refuse (s : State) (sess : Option Nat) (req status : Nat) (class0 : Bool := false) (own : Bool := false) : State :=
  match sess with
  | some id => queueReply s id { reqId := req, status := status, class0 := class0, own := own }
  | none => s

/-- The end of a session (R605, R606). -/
def endSession (s : State) (id : Nat) : State :=
  match findSess s id with
  | none => s
  | some x =>
    let s := loseReplies s (x.again.length + x.outq.length + (s.net.held.filter (fun h => h.sess == id)).length)
    let s := dropRet s id
    let s := if s.prl.joined then sendPlp s 6 [id, s.mer.t] else s
    { s with net := { s.net with
        sessions := s.net.sessions.filter (fun y => y.id != id)
        held := s.net.held.filter (fun h => h.sess != id)
        quarantine := s.net.quarantine ++ [(id, now s)] } }

/-- Close an established session (R604): CLOSE goes out, and nothing new is admitted or sent. What waited for an anchor is
dropped. -/
def closeSess (s : State) (id status reason : Nat) : State :=
  match findSess s id with
  | none => s
  | some x =>
    if x.state = .closing then s
    else
      let s := loseReplies s (x.again.length + x.outq.length)
      let s := modSess s id fun x =>
        { x with
          state := .closing, closeWith := some (status, reason), closeSeq := none, closeAt := now s, again := [], outq := []
          segs := []
          awaits := match x.awaits with
            | some (.rekey _) => none
            | a => a }
      let s := sendClose s id
      modPort s x.port fun p =>
        if 9 ≤ reason ∧ reason ≤ 11 then { p with closesTimeout := satInc 65535 p.closesTimeout }
        else if 12 ≤ reason ∧ reason ≤ 14 then { p with closesError := satInc 65535 p.closesError } else p

/-- Sessions that count against an instance's limit (R33). -/
def sessionsOf (s : State) (inst : Nat) : Nat :=
  (s.net.sessions.filter fun x => x.live && !x.mgmt && x.home == inst).length

end Sys2Proof.Machine
end

