-- ==== Sys2Proof/Machine/PoolBase.lean ====
section
/-! DEFINITION. Engines of the two pools: jobs held, recovery, faults (R491, R492, R517, R518). -/

namespace Sys2Proof.Machine

/-- Jobs that an engine holds. -/
def PoolEngine.jobs (e : PoolEngine) : List PoolJob := e.running.toList ++ e.loaded

/-- Change engine `e`. -/
def Pool.mod {n : Nat} (p : Pool n) (e : Nat) (f : PoolEngine → PoolEngine) : Pool n :=
  { p with engines := vset p.engines e (f (vget p.engines e {})) }

/-- Change a big-number engine. -/
def modBne (s : State) (e : Nat) (f : PoolEngine → PoolEngine) : State := { s with bne := s.bne.mod e f }

/-- Change a lattice engine. -/
def modLte (s : State) (e : Nat) (f : PoolEngine → PoolEngine) : State := { s with lte := s.lte.mod e f }

/-- Loaded jobs return to the head of the queue in load order, and the engine recovers (R492, R518). -/
def Pool.recover {n : Nat} (p : Pool n) (e : Nat) : Pool n :=
  let x := vget p.engines e {}
  ({ p with queue := x.loaded ++ p.queue }).mod e fun x => { x with loaded := [], recovering := true }

/-- An engine goes offline until the next start (R492, R518). -/
def Pool.offline {n : Nat} (p : Pool n) (e : Nat) : Pool n :=
  p.mod e fun x => { x with online := false, recovering := false, katFail := true }

/-- A fault, or an invariant failure that is treated as one: counted, recorded, and the engine recovers; a second one during
recovery takes it offline (R488, R491, R492; log 111). -/
def bneTrouble (s : State) (e : Nat) (isFault : Bool) : State :=
  let s := setBit (modBne s e fun x => { x with faults := satInc 65535 x.faults }) (winBase 8 e + 8) 4
  if (vget s.bne.engines e {}).recovering then logOpen { s with bne := s.bne.offline e } 8 2 [e]
  else logOpen { s with bne := s.bne.recover e } 8 (if isFault then 1 else 3) [e]

/-- A fault of a lattice engine, or an invariant failure that is treated as one (R510, R516 to R518; log 111): its cache is
discarded. -/
def lteTrouble (s : State) (e : Nat) (isFault : Bool) : State :=
  let s := setBit (modLte s e fun x => { x with faults := satInc 65535 x.faults }) (winBase 9 e + 8) 4
  let s := modLte s e fun x => { x with cache := [] }
  if (vget s.lte.engines e {}).recovering then logOpen { s with lte := s.lte.offline e } 9 2 [e]
  else logOpen { s with lte := s.lte.recover e } 9 (if isFault then 1 else 3) [e]

end Sys2Proof.Machine
end

