-- ==== Sys2Proof/Machine/Records.lean ====
section
/-! DEFINITION. The configuration, program, quorum and profile records: their bytes (Tables 7.1-7.4, 9.1, 9.3-9.5,
R782), their own checks (R315 and the owning chapters), the quorum check (R317, R418), and reservations (R284-R287). -/

namespace Sys2Proof.Machine

/-! ### Reservations -/

/-- S_p in ns (Table 6.1); none in Paddle. Profile codes: 0 Firm, 1 Steady, 2 Paddle (Table 20.6). -/
def spNs : Nat → Option Nat
  | 0 => some 37000
  | 1 => some 25000
  | _ => none

/-- Hold limit in cores (Table 6.1); 0 in Paddle. -/
def holdLimit (v : Variant) : Nat → Nat
  | 0 => match v with | .wx7480 => 44 | .wx7440 => 22
  | 1 => match v with | .wx7480 => 32 | .wx7440 => 16
  | _ => 0

/-- Core equivalent h of a reservation in a profile (R285); no core is held in Paddle (R291). -/
def coreEquiv (profile : Nat) (sh : Share) : Nat :=
  match spNs profile with
  | some ns => if sh.c0Rate = 0 then 0 else ceilDiv (sh.c0Rate * ns) 1000000000 + sh.c0Burst
  | none => 0

/-- Sum H of h over all instances (R286). -/
def holdSum (c : Cfg) (profile : Nat) : Nat := c.sumInst (coreEquiv profile)

/-- Engine yield boundary in block operations (Table 6.1); none in Paddle. -/
def yieldBoundary : Nat → Option Nat
  | 0 => some 128
  | 1 => some 32
  | _ => none

/-- The reservation of a share block fits the hold limit of the profile (R286). -/
def holdFits (v : Variant) (profile : Nat) (c : Cfg) : Bool :=
  profile == 2 || decide (holdSum c profile ≤ holdLimit v profile)

/-- The images that R310 pins: each image bound to a queue of an instance with a reservation. -/
def pinnedImages (c : Cfg) : List (Nat × Nat × Nat) :=
  ((c.binds.filter fun b =>
      match alGet c.queues b.1 with
      | some q => match c.share q.inst with
        | some sh => decide (0 < sh.c0Rate)
        | none => false
      | none => false).map (·.2)).eraseDups

/-- Bytes pinned by R310: code and constants of those images. -/
def pinnedBytes (s : State) (c : Cfg) : Nat :=
  (pinnedImages c).foldl (fun n k => match findImage s k.1 k.2.1 k.2.2 with
    | some x => n + 4 * x.code.length + x.const.length
    | none => n) 0

/-- Pinned bytes stay within 64 KiB (R310). -/
def pinFits (s : State) (c : Cfg) : Bool := decide (pinnedBytes s c ≤ 65536)

/-! ### The program cache (R151, R310; log 98) -/

/-- Lines of a crew's program cache: 256 KiB. -/
def cacheLines : Nat := 4096

/-- The lines that bytes `off` to `off + len - 1` of a section of an image lie in. -/
def imageLines (im : Image) (const : Bool) (off len : Nat) : List PLine :=
  (List.range ((off + len - 1) / 64 + 1 - off / 64)).map fun n =>
    { image := ((im.dom, im.image, im.version), im.digest), const := const, line := off / 64 + n }

/-- The pinned images with their digests. -/
def pinsOf (c : Cfg) : List ((Nat × Nat × Nat) × List Byte) :=
  (pinnedImages c).filterMap fun k => (alGet c.images k).map fun d => (k, d)

/-- Fill one line; a full cache gives up a line of an image that is not pinned (R310). -/
def fillLine (pins : List ((Nat × Nat × Nat) × List Byte)) (k : PCache) (p : PLine) : PCache :=
  if k.lines.contains p then k
  else
    let free := k.lines.filter fun q => !pins.contains q.image
    let gone := if k.lines.length < cacheLines then none else free[Config.cacheVictim k.fills % max 1 free.length]?
    { lines := k.lines.filter (fun q => some q != gone) ++ [p], fills := k.fills + 1 }

/-- Every line of an image. -/
def allLines (im : Image) : List PLine :=
  imageLines im false 0 (4 * im.code.length) ++ if im.const = [] then [] else imageLines im true 0 im.const.length

/-- The cache of every crew that is powered holds the code and constants of the pinned images (R310). -/
def fillPins (s : State) : State :=
  let pins := pinsOf (cfgV s)
  let lines := (pins.filterMap fun p => findImage s p.1.1 p.1.2.1 p.1.2.2).flatMap allLines
  if lines = [] then s
  else { s with pcache := Vector.ofFn fun n : Fin 8 =>
    if s.pwr.domains.contains (2 * n.val) then lines.foldl (fillLine pins) (s.pcache.get n) else s.pcache.get n }

/-! ### Record bytes -/

/-- Share block (Table 7.3). -/
def parseShare (b : List Byte) : Option Share :=
  if rsvdOk b 3 1 && rsvdOk b 21 3 && rsvdOk b 30 2 && rsvdOk b 36 28 then
    some { weight := fieldAt b 0 2, ports := fieldAt b 2 1, sessions := fieldAt b 4 4, admits := fieldAt b 8 4,
           kcQuota := fieldAt b 12 4, c0Rate := fieldAt b 16 4, c0Burst := fieldAt b 20 1,
           bneCredits := fieldAt b 24 2, lteCredits := fieldAt b 26 2, faultLimit := fieldAt b 28 2,
           faultWindow := fieldAt b 32 4 }
  else none

/-- Queue block (Table 7.4). -/
def parseQueue (b : List Byte) : Option QBlock :=
  if rsvdOk b 16 16 then
    some { inst := fieldAt b 0 2, replyCap := fieldAt b 2 2, depth := fieldAt b 4 4, budget := fieldAt b 8 4,
           c0Offset := fieldAt b 12 4 }
  else none

/-- Officer credential (Table 9.1). -/
def parseOfficer (b : List Byte) : Option Officer :=
  if rsvdOk b 3 5 && rsvdOk b 48 16 then
    some { slot := fieldAt b 0 1, alg := fieldAt b 1 1, roles := fieldAt b 2 1, tag := fieldAt b 8 8,
           pkDigest := slice b 16 32 }
  else none

/-- Policy entry (R408). -/
def parsePolicy (b : List Byte) : Option PolicyEntry :=
  if rsvdOk b 2 2 then some { cls := fieldAt b 0 1, k := fieldAt b 1 1, mask := fieldAt b 4 4 } else none

/-- `n` consecutive entries of `w` bytes, each parsed. -/
def parseEach {α : Type} (f : List Byte → Option α) (w : Nat) (b : List Byte) : Nat → Option (List α)
  | 0 => some []
  | n + 1 => match f (b.take w), parseEach f w (b.drop w) n with
    | some x, some l => some (x :: l)
    | _, _ => none

/-- A whole record (Tables 7.1, 7.2, 9.3 to 9.5, R782); none where `type`, `length`, a reserved field or the form of a
field breaks R315. -/
def parseRec (b : List Byte) : Option ConfRec :=
  let typ := fieldAt b 0 2
  let len := fieldAt b 2 2
  let tgt := fieldAt b 4 4
  let body := b.drop 16
  if len ≠ b.length ∨ b.length < 16 ∨ rsvdOk b 8 8 = false then none
  else if typ = 0x0701 then if len = 32 ∧ allZero body then some (.domainCreate tgt) else none
  else if typ = 0x0702 then if len = 16 then some (.domainDelete tgt) else none
  else if typ = 0x0710 then
    if len = 88 ∧ rsvdOk body 2 6 then (parseShare (body.drop 8)).map (.instCreate tgt (fieldAt body 0 2)) else none
  else if typ = 0x0711 then if len = 16 then some (.instDelete tgt) else none
  else if typ = 0x0712 then
    if len = 24 ∧ rsvdOk body 1 7 ∧ fieldAt body 0 1 < 2 then some (.adminState tgt (fieldAt body 0 1 == 1)) else none
  else if typ = 0x0713 then if len = 80 then (parseShare body).map (.shareChange tgt) else none
  else if typ = 0x0720 then if len = 48 then (parseQueue body).map (.queueConfigure tgt) else none
  else if typ = 0x0721 then if len = 16 then some (.queueRemove tgt) else none
  else if typ = 0x0901 then
    if (len - 16) % 64 = 0 then (parseEach parseOfficer 64 body ((len - 16) / 64)).map (.officerSet tgt) else none
  else if typ = 0x0902 then
    if len = (if tgt = 0 then 88 else 40) then (parseEach parsePolicy 8 body ((len - 16) / 8)).map (.policy tgt)
    else none
  else if typ = 0x0903 then
    if len = 64 ∧ fieldAt body 8 1 < 2 ∧ rsvdOk body 9 7 then
      some (.settings tgt { signer := fieldAt body 0 8, backupAllowed := fieldAt body 8 1 == 1,
                            tr34Anchor := slice body 16 32 })
    else none
  else if typ = 0x0904 then
    if len = 32 ∧ fieldAt body 2 1 < 2 ∧ rsvdOk body 3 1 ∧ rsvdOk body 6 10 then
      some (.usage tgt { number := fieldAt body 0 1, classes := fieldAt body 1 1, fixOnly := fieldAt body 2 1 == 1,
                         inst := fieldAt body 4 2 })
    else none
  else if typ = 0x0920 then
    if len = 64 ∧ rsvdOk body 40 8 then
      some (.imageLoad tgt (fieldAt body 0 4) (fieldAt body 4 4) (slice body 8 32)) else none
  else if typ = 0x0921 then
    if len = 32 ∧ rsvdOk body 8 8 then some (.imageUnload tgt (fieldAt body 0 4) (fieldAt body 4 4)) else none
  else if typ = 0x0922 then
    if len = 32 ∧ rsvdOk body 2 2 ∧ rsvdOk body 12 4 then
      some (.bind tgt (fieldAt body 0 2) (fieldAt body 4 4) (fieldAt body 8 4)) else none
  else if typ = 0x0923 then
    if len = 32 ∧ rsvdOk body 2 14 then some (.unbind tgt (fieldAt body 0 2)) else none
  else if typ = 0x0924 then
    if len = 32 ∧ rsvdOk body 8 8 then some (.raiseFloor tgt (fieldAt body 0 4) (fieldAt body 4 4)) else none
  else if typ = 0x1201 then
    if len = 24 ∧ tgt = 0 ∧ fieldAt body 0 1 < 3 ∧ fieldAt body 1 1 < 2 ∧ fieldAt body 2 1 < 3 ∧ rsvdOk body 3 5 then
      some (.profile { code := fieldAt body 0 1, blind128 := fieldAt body 1 1 == 1, vas := fieldAt body 2 1 })
    else none
  else none

/-! ### The records' own checks -/

/-- A domain exists; domain 0 always does (R29). -/
def domExists (c : Cfg) (d : Nat) : Bool := d == 0 || c.domains.contains d

/-- Ranges of Table 7.3. -/
def shareInRange (v : Variant) (sh : Share) : Bool :=
  decide (1 ≤ sh.weight ∧ sh.weight ≤ 1024 ∧ sh.ports < 16 ∧ sh.sessions ≤ v.sessions ∧ 1 ≤ sh.admits ∧
    sh.admits ≤ 4194304 ∧ sh.kcQuota ≤ v.cacheEntries ∧ sh.c0Rate ≤ 10000000 ∧
    (if sh.c0Rate = 0 then sh.c0Burst = 0 else 1 ≤ sh.c0Burst ∧ sh.c0Burst ≤ 64) ∧ sh.bneCredits ≤ 4096 ∧
    sh.lteCredits ≤ 4096 ∧ sh.faultLimit ≤ 65535 ∧ 1 ≤ sh.faultWindow ∧ sh.faultWindow ≤ 60000)

/-- Ranges of Table 7.4 and R132. -/
def queueInRange (b : QBlock) : Bool :=
  decide (b.inst < 4096 ∧ b.replyCap ≤ 8192 ∧ 1 ≤ b.depth ∧ b.depth ≤ 65536 ∧ 16 ≤ b.budget ∧ b.budget ≤ 16777215 ∧
    16 ≤ b.c0Offset ∧ b.c0Offset ≤ 16000000)

/-- The classes that a scope's policy names (R408, Table 9.2). -/
def scopeClasses (scope : Nat) : List Nat := if scope = 0 then [1, 2, 3, 4, 5, 6, 7, 8, 9] else [3, 4, 5]

/-- Slots of a scope (R405). -/
def scopeSlots (scope : Nat) : Nat := if scope = 0 then 32 else 16

/-- Officer entries conform to Table 9.1 and R405; a committed set is not empty (R410). -/
def officersOk (scope : Nat) (l : List Officer) : Bool :=
  decide (1 ≤ l.length ∧ l.length ≤ scopeSlots scope) &&
    l.all fun o => decide (o.slot < scopeSlots scope ∧ (o.alg = 0x28 ∨ o.alg = 0x11) ∧ 1 ≤ o.roles ∧ o.roles ≤ 3)

/-- Approver slots of an officer set that lie in a mask. -/
def approversIn (l : List Officer) (mask : Nat) : List Nat :=
  ((l.filter fun o => bitOf o.roles 0 && bitOf mask o.slot).map (·.slot)).eraseDups

/-- Policy checks (R408, R411): one entry for each class of the scope. -/
def policyOk (c : Cfg) (scope : Nat) (l : List PolicyEntry) : Bool :=
  let off := (alGet c.officers scope).getD []
  l.length == (scopeClasses scope).length &&
    (scopeClasses scope).all (fun k => l.any (fun e => e.cls == k)) &&
    l.all fun e => decide (1 ≤ e.k ∧ e.k ≤ 8 ∧ e.k ≤ (approversIn off e.mask).length)

/-- A target that names a scope: the module or an existing domain (R28, R319). -/
def scopeOk (c : Cfg) (d : Nat) : Bool := decide (d ≤ 4096) && domExists c d

/-- The runtime state of an instance. -/
def insRt (s : State) (i : Nat) : Option InstRt := s.ins.find? (fun x => x.id == i)

/-- The designated program-signing key of a domain as of a configuration (R146). -/
def signerKey (c : Cfg) (d : Nat) : Option KeyRec :=
  let id := ((alGet c.settings d).getD {}).signer
  c.keys.find? fun k => k.name.dom == d && k.name.dom * 2 ^ 51 + k.name.idx * 2 ^ 24 + k.name.gen == id

/-- Signature length of a `sig_set` (R144). -/
def sigBytes : Nat → Nat
  | 2 => 2420 | 3 => 3309 | 5 => 4627 | _ => 0

/-- Key algorithm of a `sig_set`. -/
def sigAlg : Nat → Nat
  | 2 => 0x28 | 3 => 0x29 | _ => 0x2A

/-- `n` 32-bit words, least significant byte first (R155). -/
def imageWords (b : List Byte) : Nat → List Nat
  | 0 => []
  | n + 1 => leNat (b.take 4) :: imageWords (b.drop 4) n

/-- The image that a file holds (R144, R145, R155, Table 3.9); none where its layout, a reserved field or a range breaks
R144. -/
def imageOf (b : List Byte) : Option Image :=
  let n := fieldAt b 10 2
  let cl := fieldAt b 20 4
  let kl := fieldAt b 24 4
  let sg := fieldAt b 40 1
  let body := b.drop 128
  let x : Image :=
    { dom := fieldAt b 8 2, image := fieldAt b 12 4, version := fieldAt b 16 4, signer := fieldAt b 32 8, sigSet := sg
      entries := imageWords body n, code := imageWords (body.drop (4 * n)) (cl / 4), const := (body.drop (4 * n + cl)).take kl
      digest := slice b 48 32 }
  if fieldAt b 0 4 = 0x464E595A ∧ fieldAt b 4 2 = 1 ∧ rsvdOk b 6 2 ∧ x.dom ≤ 4096 ∧ 1 ≤ n ∧ n ≤ 1024 ∧ cl % 4 = 0 ∧ 4 ≤ cl ∧
      cl ≤ 1048576 ∧ kl ≤ 262144 ∧ rsvdOk b 28 4 ∧ (sg = 2 ∨ sg = 3 ∨ sg = 5) ∧ rsvdOk b 41 7 ∧ rsvdOk b 80 48 ∧
      b.length = 128 + 4 * n + cl + kl + sigBytes sg ∧
      x.entries.all (fun w => w == 0xFFFFFFFF || decide (w < 2 ^ 25 ∧ w % 2 ^ 24 < x.code.length)) then some x
  else none

/-- Its signature verifies under the key, and `body_digest` is the digest of the body (R146). -/
def imageSound (b : List Byte) (x : Image) (k : KeyRec) : Bool :=
  let n := b.length - 128 - sigBytes x.sigSet
  k.attrs.alg == sigAlg x.sigSet && sha3_256 (slice b 128 n) == x.digest
    && mldsaVerifies k.attrs.alg (publicPart k) [] (b.take 128) (b.drop (128 + n))

/-- The checks of an image load (R144, R146): the staged image, or none. -/
def loadable (s : State) (c : Cfg) (d i v : Nat) (dig : List Byte) : Option Image :=
  match alGet s.ksc.staged (d, i, v), signerKey c d with
  | some b, some k =>
    match imageOf b with
    | some x =>
      if x.dom = d ∧ x.image = i ∧ x.version = v ∧ x.digest = dig ∧ x.signer = keyIdOf k.name ∧ bitOf k.attrs.usage uVerify ∧
          bitOf k.attrs.engines eLte ∧ c.floor d i ≤ v ∧ imageSound b x k then some x
      else none
    | none => none
  | _, _ => none

/-- Bytes an image takes in the program store: its whole file (log 99). -/
def imageBytes (x : Image) : Nat :=
  128 + 4 * x.entries.length + 4 * x.code.length + x.const.length + sigBytes x.sigSet

/-- Images that count towards the limits of R149: the loaded ones, and those that a chain still runs (R150). -/
def residentImages (s : State) : List Image :=
  let run := (s.cores.toList.filterMap (·.item) ++ s.dsp.work.map (·.item) ++ s.dsp.parked.map (·.item)).filterMap (·.image)
  s.ksc.images ++ run.eraseDups.filter fun x => !s.ksc.images.contains x

/-- The file that a load takes: the one that a submitted load has fixed, else the upload. -/
def uploadOf (s : State) (k : Nat × Nat × Nat) : Option (List Byte) :=
  (alGet s.ksc.loading k).orElse fun _ => alGet s.ksc.staged k

/-- Images that loads not yet visible will make resident: those of commits above V, and those of a transaction `t`. -/
def comingImages (s : State) (t : Cfg) : List Image :=
  (((cfgAt s (lastCsn s)).images ++ t.images).map (·.1)).eraseDups.filterMap fun k =>
    if (findImage s k.1 k.2.1 k.2.2).isSome then none else (uploadOf s k).bind imageOf

/-- A load of `x` would exceed a limit of R149. -/
def storeFull (s : State) (t : Cfg) (x : Image) : Bool :=
  let l := residentImages s ++ (comingImages s t).filter fun y => y != x
  decide (4096 ≤ l.length ∨ 67108864 < l.foldl (fun n y => n + imageBytes y) 0 + imageBytes x)

/-- An image is resident as of a configuration (R148): one that the start rejected is not (R744). -/
def residentAt (s : State) (c : Cfg) (k : Nat × Nat × Nat) : Bool :=
  (alGet c.images k).isSome && ((findImage s k.1 k.2.1 k.2.2).isSome || (alGet (cfgV s).images k).isNone)

/-- A record's own checks against the snapshot configuration `c`, less the quorum check (R315 and the owning chapters); 0
where they pass. Sums that a limit bounds count the earlier records of the same transaction, which `t` holds (R286, R310,
log 100). -/
def checkRecord (s : State) (c : Cfg) (r : ConfRec) (t : Cfg := c) : Nat :=
  let v := s.variant
  let pi (b : Bool) : Nat := if b then 0 else St.paramInvalid
  match r with
  | .domainCreate d => pi (decide (1 ≤ d ∧ d ≤ 4096) && !c.domains.contains d && !s.ksc.erasing.contains d)
  | .domainDelete d => pi (decide (1 ≤ d ∧ d ≤ 4096) && c.insts.all (fun x => x.2.dom != d))
  | .instCreate i d sh =>
    let c' := t.applyConf r
    if (decide (i < v.instances) && (alGet c.insts i).isNone && decide (d ≤ 4096) && domExists c d
        && shareInRange v sh && decide (c'.sumInst (·.kcQuota) ≤ v.cacheEntries)) = false then St.paramInvalid
    else if 0 < sh.c0Rate ∧ holdFits v s.pwr.effective c' = false then St.reservationLimit
    else 0
  | .instDelete i =>
    pi (match insRt s i with
      | some x => decide (x.state = .disabled) && !x.draining && (alGet c.insts i).isSome
          && c.queues.all (fun q => q.2.inst != i)
      | none => false)
  | .adminState i _ => pi (decide (i < v.instances))
  | .shareChange i sh =>
    let c' := t.applyConf r
    let old := ((t.share i).map (·.c0Rate)).getD 0
    let oldB := ((t.share i).map (·.c0Burst)).getD 0
    if (decide (i < v.instances) && shareInRange v sh && decide (c'.sumInst (·.kcQuota) ≤ v.cacheEntries)) = false then
      St.paramInvalid
    else if (old < sh.c0Rate ∨ oldB < sh.c0Burst) ∧ holdFits v s.pwr.effective c' = false then St.reservationLimit
    else if 0 < sh.c0Rate ∧ pinFits s c' = false then St.reservationLimit
    else 0
  | .queueConfigure q b =>
    let c' := t.applyConf r
    pi (decide (q < v.queues) && queueInRange b && (alGet c.insts b.inst).isSome
      && ((alGet c.queues q).all (fun x => x.inst == b.inst))
      && decide (c'.queues.foldl (fun n x => n + x.2.depth) 0 ≤ 4194304))
  | .queueRemove q => pi (decide (q < v.queues))
  | .officerSet d l => pi (scopeOk c d && officersOk d l)
  | .policy d l => pi (scopeOk c d && policyOk c d l)
  | .settings d _ => pi (scopeOk c d)
  | .usage d u => pi (scopeOk c d && decide (1 ≤ u.number ∧ u.number ≤ 255 ∧ u.classes < 16 ∧ u.inst < 65536))
  | .imageLoad d i w dig =>
    if scopeOk c d = false then St.paramInvalid
    else match loadable s c d i w dig with
      | none => St.imageRejected
      | some x => if storeFull s t x then St.programStoreFull else 0
  | .imageUnload d i w =>
    if scopeOk c d = false then St.paramInvalid
    else if c.binds.any (fun b => b.2 == (d, i, w)) then St.imageInUse else 0
  | .bind d q i w =>
    if (scopeOk c d && decide (q < v.queues) && (match alGet c.queues q with
        | some b => ((alGet c.insts b.inst).map (·.dom)) == some d
        | none => false) && residentAt s c (d, i, w)) = false then St.paramInvalid
    else if w < c.floor d i then St.notAuthorised
    else if pinFits s (t.applyConf r) = false then St.reservationLimit
    else 0
  | .unbind d q => pi (scopeOk c d && decide (q < v.queues))
  | .raiseFloor d _ _ => pi (scopeOk c d)
  | .profile p =>
    if (decide (p.code < 3 ∧ p.vas < 3)) = false then St.paramInvalid
    else if holdFits v p.code t = false then St.reservationLimit else 0

/-- The configuration as of a snapshot with the records of an open transaction. -/
def txCfg (s : State) (snap : Nat) (t : Tx) : Cfg := t.recs.foldl (fun c r => c.applyRec snap r.recd) (cfgAt s snap)

/-! ### The quorum check -/

/-- u in ticks, rounded up (R66). -/
def uTicks (s : State) : Nat := ceilDiv (s.mer.unc * 2) 125

/-- Quorum class and scope that a record needs (Tables 7.2, 9.3). A profile record is committed by its ceremony alone. -/
def quorumOf : ConfRec → Option (Nat × Nat)
  | .domainCreate _ | .domainDelete _ => some (2, 0)
  | .officerSet d _ | .policy d _ | .settings d _ | .usage d _ => some (10, d)
  | .imageLoad d _ _ _ | .imageUnload d _ _ | .bind d _ _ _ | .unbind d _ | .raiseFloor d _ _ => some (3, d)
  | .profile _ => some (6, 0)
  | _ => none

/-- The completed, unreserved and unlapsed ceremony whose body is this record (R418). A record and a body agree byte for
byte exactly where the body spells the record, every reserved byte being zero. -/
def authorising (s : State) (r : ConfRec) : Option Ceremony :=
  match quorumOf r with
  | none => none
  | some (cls, scope) => s.qrm.cers.find? fun x =>
      x.cls == cls && x.scope == scope && x.state == .complete && x.reservedBy.isNone
        && decide (s.mer.t + uTicks s < x.close) && parseRec x.body == some r

/-- The quorum check passes (R317, R418). -/
def quorumOk (s : State) (r : ConfRec) : Bool := (quorumOf r).isNone || (authorising s r).isSome

/-- Change a ceremony. -/
def modCer (s : State) (n : Nat) (f : Ceremony → Ceremony) : State :=
  { s with qrm := { s.qrm with cers := s.qrm.cers.map fun x => if x.number = n then f x else x } }

end Sys2Proof.Machine
end

