-- ==== Sys2Proof/Machine/SymOut.lean ====
section
/-! DEFINITION. What cipher, hash and check-value jobs compute, and how far a running one is (chapter 10): check values, PIN
blocks, costs, outputs, progress. -/

namespace Sys2Proof.Machine

/-! ### Engines by kind -/

/-- Engine `e` of a kind; a check-value unit is named by its own number. -/
def engineOf (s : State) : SymKind → Nat → SymEngine
  | .cipher, e => vget s.cph e {}
  | .hash, e => vget s.hsh e {}
  | .check, e => vget s.cvu e {}

/-- Replace engine `e` of a kind. -/
def setEngine (s : State) (k : SymKind) (e : Nat) (x : SymEngine) : State :=
  match k with
  | .cipher => { s with cph := vset s.cph e x }
  | .hash => { s with hsh := vset s.hsh e x }
  | .check => { s with cvu := vset s.cvu e x }

/-- Control-space block of a kind (Table 20.1). -/
def kindBlock : SymKind → Nat
  | .cipher => 5 | .hash => 6 | .check => 7

/-- GCM IV (R392): pair-unit ID, `iv_fixed`, counter, most significant byte first. -/
def gcmIv (s : State) (k : KeyRec) (v : Nat) : List Byte :=
  beBytes 2 s.prl.unitId ++ beBytes 5 k.ivFixed ++ beBytes 5 v

/-! ### Check values (R467 to R470) -/

/-- Bits of `v` in reverse order over `n` bits. -/
def reflectBits (n v : Nat) : Nat := (List.range n).foldl (fun acc i => acc * 2 + v / 2 ^ i % 2) 0

/-- One bit into the register, most significant first. -/
def crcBit (w poly r : Nat) (b : Bool) : Nat :=
  let top := bitOf r (w - 1) != b
  (r * 2 % 2 ^ w) ^^^ (if top then poly else 0)

/-- One byte into the register. -/
def crcByte (c : CvCtx) (r : Nat) (b : Byte) : Nat :=
  let v := if c.reflIn then reflectBits 8 b.toNat else b.toNat
  [7, 6, 5, 4, 3, 2, 1, 0].foldl (fun r i => crcBit c.width c.poly r (bitOf v i)) r

/-- A byte string into the register. -/
def crcBytes (c : CvCtx) (r : Nat) (bs : List Byte) : Nat := bs.foldl (crcByte c) r

/-- The result of a context (R248, R467, R469). -/
def cvResult (c : CvCtx) : Nat :=
  let r := if c.tagMode = 3 then crcBytes c c.reg (leBytes 8 c.tag) else c.reg
  (if c.reflOut then reflectBits c.width r else r) ^^^ c.xorOut

/-! ### Costs -/

/-- A cipher block's cost. -/
def costOf (b : CiphBlk) (alg : Nat) : CipherCost :=
  { mode := b.mode, dir := b.dir, alg := alg, len := b.src.len, aad := b.aad.len, param := b.param, aux := b.aux }

/-- Block operations of a job: blocks, permutations, or bytes of a check value (Table 10.5). -/
def jobOps (j : SymJob) : Nat :=
  let alg := match j.key with | some k => k.attrs.alg | none => 0
  let klen := match j.key with | some k => k.material.length | none => 0
  match j.op with
  | .ciph b _ => cipherBlocks (costOf b alg)
  | .macv b => if hashMode b.mode then macBlocks b.mode b.src.len klen b.aad.len else cipherBlocks (costOf b alg)
  | .kmac b => macBlocks b.mode b.src.len klen b.aad.len
  | .hash a o src _ => hashBlocks a src.len o
  | .keyInstr n _ _ _ => n
  | .cvupd _ src => src.len

/-- Blocks that C7 counts at issue: a hash block counts as two, 16 check-value bytes as one (Table 6.3). -/
def c7Blocks (k : SymKind) (j : SymJob) : Nat :=
  match k with
  | .cipher => jobOps j
  | .hash => 2 * jobOps j
  | .check => ceilDiv (jobOps j) 16

/-! ### Outputs -/

/-- Counter block `i` of a CTR job, and its key stream (R807). -/
def ctrStream (k : KeyRec) (iv n : Nat) : List Byte :=
  (List.range n).flatMap fun i => cryptoBytes .blockEnc (keyIn k ++ [beBytes 16 ((iv + i) % 2 ^ 128)]) 16

/-! ### PIN blocks (R239) -/

/-- The digits of a byte string in base 16, the high one of each byte first, and the string of such digits. -/
def nibbles (b : List Byte) : List Nat := b.flatMap fun x => [x.toNat / 16, x.toNat % 16]
def ofNibbles : List Nat → List Byte
  | a :: b :: l => BitVec.ofNat 8 (a * 16 + b) :: ofNibbles l
  | _ => []

/-- Digits of the PAN reference; for a byte that is no ASCII digit the spec states none (log 103). -/
def panDigits (pan : List Byte) : List Nat :=
  if pan.all fun b => decide (0x30 ≤ b.toNat ∧ b.toNat ≤ 0x39) then pan.map fun b => b.toNat - 0x30
  else (cryptoBytes .pinBlock [pan] pan.length).map fun b => b.toNat % 10

/-- PAN field of ISO 9564-1: for format 4 the length less 12 and every digit, else the 12 digits before the check digit. -/
def panField (fmt : Nat) (pan : List Byte) : List Byte :=
  let d := panDigits pan
  if fmt = 4 then ofNibbles (((d.length - 12) :: d) ++ List.replicate (31 - d.length) 0)
  else
    let last := (List.replicate 12 0 ++ d.dropLast).reverse.take 12
    ofNibbles ([0, 0, 0, 0] ++ last.reverse)

/-- A block under a key. -/
def blockOne (p : Prim) (k : KeyRec) (b : List Byte) : List Byte := cryptoBytes p (keyIn k ++ [b]) b.length

/-- PIN digits of an input block, or none where the PIN field fails a check of R239. -/
def pinOpen (fmt : Nat) (k : KeyRec) (pan src : List Byte) : Option (List Nat) :=
  let b := blockOne .ecbDec k src
  let field := if fmt = 4 then blockOne .ecbDec k (xorBytes b (panField 4 pan))
    else if fmt = 1 then b else xorBytes b (panField fmt pan)
  let n := (nibbles field).take 16
  let len := n.getD 1 0
  let fill := n.drop (2 + len)
  let fillOk : Bool := match fmt with
    | 0 => fill.all (· == 15)
    | 3 => fill.all fun v => decide (10 ≤ v)
    | 4 => fill.all (· == 10)
    | _ => true
  if n.getD 0 0 = fmt ∧ 4 ≤ len ∧ len ≤ 12 ∧ fillOk then some ((n.drop 2).take len) else none

/-- Output block of PIN digits; `rand` is its random fill. -/
def pinForm (fmt : Nat) (k : KeyRec) (pan : List Byte) (pin : List Nat) (rand : List Byte) : List Byte :=
  let r := nibbles rand
  let head := fmt :: pin.length :: pin
  let left := 16 - head.length
  let fill := match fmt with
    | 0 => List.replicate left 15
    | 3 => (r.take left).map fun v => 10 + v % 6
    | 4 => List.replicate left 10
    | _ => r.take left
  let field := ofNibbles (head ++ fill)
  if fmt = 4 then
    blockOne .ecbEnc k (xorBytes (blockOne .ecbEnc k (field ++ ofNibbles (r.drop 16))) (panField 4 pan))
  else blockOne .ecbEnc k (if fmt = 1 then field else xorBytes field (panField fmt pan))

/-! ### Results -/

/-- MAC of `n` bytes for a mode, over the given inputs (Table 5.6). -/
def macOf (mode padding n : Nat) (k : KeyRec) (iv aad src : List Byte) : List Byte :=
  match mode with
  | 6 => (gcmTag (keyIn k) iv aad []).take n
  | 7 => cryptoBytes .cmac (keyIn k ++ [src]) n
  | 8 => cryptoBytes .iso9797a1 (keyIn k ++ [leBytes 1 padding, src]) n
  | 9 => cryptoBytes .iso9797a3 (keyIn k ++ [leBytes 1 padding, src]) n
  | 0x28 | 0x29 => cryptoBytes .kmac [leBytes 1 mode, k.material, aad, src, leBytes 2 n] n
  | m => (hmacOf m k.material src).take n

/-- Tag length of a generation (R820). -/
def genTagLen (b : CiphBlk) : Nat := if b.mode = 5 ∨ b.mode = 6 then 16 else b.param

/-- What a `CIPH` job delivers: its status, and the bytes it writes by reference. -/
def ciphOut (s : State) (x : Item) (j : SymJob) (b : CiphBlk) (k : KeyRec) (key2 : Option KeyRec) :
    Nat × List (BufRef × List Byte) :=
  let src := readRef s j.core x b.src
  let ivIn := readRef s j.core x b.iv
  let aad := readRef s j.core x b.aad
  let n := src.length
  let iv := gcmIv s k (j.ctr.getD 0)
  match b.mode with
  | 1 => (0, [(b.dst, cryptoBytes (if b.dir = 0 then .ecbEnc else .ecbDec) (keyIn k ++ [src]) n)])
  | 2 => (0, [(b.dst, cryptoBytes (if b.dir = 0 then .cbcEnc else .cbcDec)
      (keyIn k ++ [ivIn.take (blockSize k.attrs.alg), src]) n)])
  | 3 => (0, [(b.dst, xorBytes src (ctrStream k (beNat (ivIn.take 16)) (ceilDiv n 16)))])
  | 4 => (0, [(b.dst, cryptoBytes (if b.dir = 0 then .cfb8Enc else .cfb8Dec) (keyIn k ++ [ivIn.take 16, src]) n)])
  | 5 =>
    if b.dir = 0 then
      let ct := gcmText (keyIn k) iv src
      (0, [(b.dst, ct), (b.tagRef, gcmTag (keyIn k) iv aad ct), (b.iv, iv)])
    else
      let tag := readRef s j.core x b.tagRef
      if (gcmTag (keyIn k) (ivIn.take 12) aad src).take tag.length = tag then
        (0, [(b.dst, gcmText (keyIn k) (ivIn.take 12) src)])
      else (St.authFail, [])
  | 6 => (0, [(b.tagRef, macOf 6 0 16 k iv aad []), (b.iv, iv)])
  | 10 => (0, [(b.dst, cryptoBytes (if b.dir = 0 then .ff1Enc else .ff1Dec) (keyIn k ++ [leBytes 4 b.param, aad, src]) n)])
  | 11 =>
    match pinOpen (b.aux % 16) k aad src, key2 with
    | some pin, some k2 => (0, [(b.dst, pinForm (b.aux / 16) k2 aad pin j.rand)])
    | _, _ => (St.pinFormat, [])
  | m => (0, [(b.tagRef, macOf m (b.aux % 4) (genTagLen b) k [] aad src)])

/-- Outcome of a job whose key port, source and references are in order. -/
def jobOut (s : State) (x : Item) (j : SymJob) : Nat × Bool × List (BufRef × List Byte) :=
  match j.op, j.key with
  | .ciph b key2, some k => let r := ciphOut s x j b k key2; (r.1, false, r.2)
  | .macv b, some k =>
    let tag := readRef s j.core x b.tagRef
    let mac := macOf b.mode (b.aux % 4) tag.length k ((readRef s j.core x b.iv).take 12) (readRef s j.core x b.aad)
      (readRef s j.core x b.src)
    if mac = tag then (0, true, []) else (St.authFail, false, [])
  | .kmac b, some k =>
    (0, false, [(b.dst, macOf b.mode 0 b.param k [] (readRef s j.core x b.aad) (readRef s j.core x b.src))])
  | .hash a o src dst, _ => (0, false, [(dst, digestOf a o (readRef s j.core x src))])
  | _, _ => (0, false, [])

/-- Write a list of outputs. -/
def writeOuts (s : State) (c : CoreId) (l : List (BufRef × List Byte)) : State :=
  l.foldl (fun s w => writeRef s c w.1 w.2) s

/-! ### Progress (R450 to R452, R456, R458) -/

/-- A streaming job whose output data has bytes before its end (chapter 10, "When results are written"). -/
def streaming (j : SymJob) : Bool :=
  match j.op with
  | .ciph b _ => decide (b.mode ≤ 4) || (b.mode == 5 && b.dir == 0)
  | _ => false

/-- Cycles of one block operation of a job. -/
def opCycles (j : SymJob) : Nat :=
  let alg := match j.key with | some k => k.attrs.alg | none => 1
  match j.op with
  | .ciph b _ => if b.mode = 8 then 50 else if b.mode = 9 then 18 else blockCycles alg
  | .macv b => if hashMode b.mode then hashUnit (b.mode == 0x20) (decide (b.mode ≤ 0x22))
      else if b.mode = 8 then 50 else if b.mode = 9 then 18 else blockCycles alg
  | .kmac b => hashUnit (b.mode == 0x20) (decide (b.mode ≤ 0x22))
  | .hash a _ _ _ => hashUnit (a == 1) (decide (a ≤ 3))
  | .keyInstr _ _ _ _ => blockCycles alg
  | .cvupd _ _ => 1

/-- Cycles before its first block operation: 20 to start, and the AAD of GCM; a resumed job has none (R456). -/
def leadCycles (j : SymJob) : Nat :=
  if j.blocks ≠ 0 then 0
  else 20 + match j.op with
    | .ciph b _ => if b.mode = 5 then ceilDiv b.aad.len 16 else 0
    | _ => 0

/-- Block operations that a running job has completed by tick `t`, by the 1.5 GHz clock: 93.75 cycles a tick (R450; log 102). -/
def jobBy (j : SymJob) (t : Nat) : Nat :=
  min (jobOps j) (j.blocks + ((t - j.since) * 375 / 4 - leadCycles j) / opCycles j)

/-- Block operations that it has completed by now. -/
def jobAt (s : State) (j : SymJob) : Nat := jobBy j (now s)

/-- Bytes of its destination that a streaming job has written after `q` block operations (R452). -/
def reached (j : SymJob) (q : Nat) : Nat :=
  match j.op with
  | .ciph b _ =>
    if streaming j = false then 0
    else match b.mode with
      | 3 => min b.src.len (16 * q)
      | 4 => q
      | 5 => min b.src.len (16 * (q - 1))
      | _ => q * blockSize (match j.key with | some k => k.attrs.alg | none => 1)
  | _ => 0

/-- Bytes `n` and beyond of the first output, and every other output. -/
def outsFrom (n : Nat) : List (BufRef × List Byte) → List (BufRef × List Byte)
  | [] => []
  | (r, d) :: l => ({ r with off := r.off + n }, d.drop n) :: l

/-- A running job at block operation `q`: its result is fixed in the engine's saved state or staging buffer, and a streaming
job's destination holds what it has reached (R452, R456). -/
def advanceJob (s : State) (j : SymJob) (q : Nat) : State × SymJob :=
  match (s.core j.core).item with
  | none => (s, j)
  | some x =>
    if j.scrub = true ∨ j.status ≠ 0 then (s, { j with blocks := q, since := now s })
    else
      let r := j.out.getD (jobOut s x j)
      let s := match r.2.2 with
        | (d, b) :: _ =>
          if streaming j then
            writeRef s j.core { d with off := d.off + reached j j.blocks } ((b.take (reached j q)).drop (reached j j.blocks))
          else s
        | [] => s
      (s, { j with blocks := q, since := now s, out := some r })

/-- Engine `e` with its running job brought to the present where `p` picks it. -/
def flushEngine (p : SymJob → Bool) (s : State) (e : Nat) : State :=
  let x := engineOf s .cipher e
  match x.running with
  | none => s
  | some j =>
    if p j = true ∧ streaming j = true ∧ j.blocks < jobAt s j then
      let (s, j) := advanceJob s j (jobAt s j)
      setEngine s .cipher e { x with running := some j }
    else s

/-- What the streaming jobs that `p` picks have written by now is in memory (R452): before their outputs are discarded (R140,
R461). -/
def flushJobs (s : State) (p : SymJob → Bool) : State := (List.range 16).foldl (flushEngine p) s

end Sys2Proof.Machine
end

