-- ==== Sys2Proof/Machine/Chain.lean ====
section
/-! DEFINITION. Work items and chains as the dispatcher and the instances see them: occupancy, the scheduling trace, fault
counting, transactions left open, and every way a chain ends (chapters 03, 06 and 07). -/

namespace Sys2Proof.Machine

/-! ### Where items are -/

/-- Items on cores. -/
def coreItems (s : State) : List Item := s.cores.toList.filterMap (·.item)

/-- Every item of the module (R324): queued, ready, parked, running, delayed and reserved. -/
def allItems (s : State) : List Item :=
  s.dsp.work.map (·.item) ++ s.dsp.parked.map (·.item) ++ coreItems s ++ s.dsp.delay.map (·.item)
    ++ s.dsp.reserved.map (·.item)

/-- Admission occupancy of an instance (R324). -/
def instOcc (s : State) (i : Nat) : Nat := ((allItems s).filter fun x => x.inst == i).length

/-- Queue entries in use (R275): items never dispatched, delayed items and reserved posts. -/
def queueOcc (s : State) (q : Nat) : Nat :=
  (s.dsp.work.filter fun w => w.carry.isNone && w.item.queue == q).length
    + (s.dsp.delay.filter fun x => x.item.queue == q).length
    + (s.dsp.reserved.filter fun x => x.item.queue == q).length

/-- Chains with a snapshot: running, parked and ready continuations (R375). -/
def liveChains (s : State) : List Item :=
  coreItems s ++ s.dsp.parked.map (·.item) ++ (s.dsp.work.filter (·.carry.isSome)).map (·.item)

/-- Held items running in a crew (R288). -/
def heldInCrew (s : State) (crew : Nat) : Nat :=
  ((s.cores.toList.zip (List.range 64)).filter fun p =>
    p.2 / 8 == crew && (match p.1.item with | some x => x.held | none => false)).length

/-- Held items of an instance running (R288). -/
def heldOfInst (s : State) (i : Nat) : Nat := ((coreItems s).filter fun x => x.held && x.inst == i).length

/-! ### Rings (R293, R294) -/

/-- First occurrences, in order. -/
def firsts : List Nat → List Nat
  | [] => []
  | a :: l => a :: (firsts l).filter (· != a)

/-- Instances with a READY item in a class, in the order of those items. -/
def readyIn (s : State) (c : Nat) : List Nat :=
  firsts ((s.dsp.work.filter fun w => w.item.cls == c).map (·.item.inst))

/-- The ring of class `c` after its READY items changed: an instance without one leaves with deficit zero, and one that has
one again joins (R294). -/
def syncRing (s : State) (c : Nat) : State :=
  let now := readyIn s c
  let ring := vget s.dsp.rings c []
  let gone := ring.filter fun i => !now.contains i
  { s with dsp := { s.dsp with
      rings := vset s.dsp.rings c (ring.filter (fun i => now.contains i) ++ now.filter fun i => !ring.contains i)
      deficits := gone.foldl (fun d i => alSet d (c, i) 0) s.dsp.deficits } }

/-- The rings of classes 1 to 3. -/
def syncRings (s : State) : State := syncRing (syncRing (syncRing s 1) 2) 3

/-- Change the queued and ready items. -/
def modWork (s : State) (f : List Work → List Work) : State := syncRings { s with dsp := { s.dsp with work := f s.dsp.work } }

/-- An admitted item joins its queue. -/
def addWork (s : State) (x : Item) : State := modWork s (· ++ [{ item := x }])

/-! ### Scheduling trace -/

/-- Tag of a trace record: request ID for host items, serial number otherwise (Table 6.5). -/
def traceTag (x : Item) : Nat := if x.origin = .host then x.reqId else x.serial % 2 ^ 32

/-- Write a trace record (R311, R312, Table 6.5). -/
def traceItem (s : State) (kind : Nat) (x : Item) (core detail : Nat) : State :=
  let ctrl := 0x00020004
  let filt := 0x00020024
  if rbit s ctrl 1 = false ∨ bitOf (fld s 0x00020028 0 16) kind = false ∨ bitOf (fld s filt 16 4) x.cls = false ∨
      (rbit s filt 12 = false ∧ fld s filt 0 12 ≠ x.inst) then s
  else if s.dsp.full = true ∧ rbit s ctrl 2 = true then
    { s with dsp := { s.dsp with traceLost := satInc 0xFFFFFFFF s.dsp.traceLost } }
  else
    let w := s.mer.t % 2 ^ 40 + kind * 2 ^ 40 + x.cls * 2 ^ 44 + b2n x.held * 2 ^ 46 + x.inst * 2 ^ 48
      + x.queue * 2 ^ 60 + core * 2 ^ 74 + min 65535 detail * 2 ^ 80 + traceTag x * 2 ^ 96
    let p := s.dsp.wptr
    { s with dsp := { s.dsp with
        trace := alSet s.dsp.trace p w
        wptr := (p + 1) % 65536
        wrapped := s.dsp.wrapped || s.dsp.full
        full := s.dsp.full || p == 65535 } }

/-! ### Instances: fault counting -/

/-- Change an instance's runtime state. -/
def modIns (s : State) (i : Nat) (f : InstRt → InstRt) : State :=
  { s with ins := s.ins.map fun x => if x.id = i then f x else x }

/-- The instance has reached its fault limit in the current window, and nothing handles that yet (R341, R356). -/
def limitReached (s : State) (x : InstRt) : Bool :=
  let limit := (((cfgV s).share x.id).map (·.faultLimit)).getD 0
  blockEn s 3 0 && limit != 0 && decide (limit ≤ x.winCount) && (x.state == .active || x.state == .quiescing)
    && !x.hq.contains .faultLimit

/-- One counted fault (R341, R356): while `en` is 1 the window count advances and reaching the limit queues a fault-limit
event; a reset that ends ACTIVE ends FAULTED instead (Table 7.5). `false` where the count comes to the limit and the event finds
the handling queue full. -/
def countOnce (s : State) (i : Nat) : State × Bool :=
  let s := modIns s i fun x =>
    { x with
      winCount := if blockEn s 3 0 then satInc 65535 x.winCount else x.winCount
      ending := if x.state = .resetting ∧ x.ending = .active then .faulted else x.ending }
  match insRt s i with
  | none => (s, true)
  | some x =>
    if limitReached s x then
      if x.hq.length < 8 then (modIns s i fun x => { x with hq := x.hq ++ [.faultLimit] }, true)
      else (s, decide (x.winCount ≠ (((cfgV s).share i).map (·.faultLimit)).getD 0))
    else (s, true)

/-- One event that the handling queue has no room for: counted, flagged, and itself a counted fault (R346). -/
def ovfOnce (s : State) (i : Nat) : State × Bool :=
  countOnce (setBit (modIns s i fun x => { x with ovf := satInc 65535 x.ovf }) 0x00030008 3) i

/-- A handling-queue overflow (R346). The fault-limit event that it may raise finds the queue full too, and overflows in its
turn; beyond the limit there is none. -/
def hqOverflow (s : State) (i : Nat) : State :=
  let (s, ok) := ovfOnce s i
  if ok then s else (ovfOnce s i).1

/-- Count a fault against an instance (R37, R341, R346). -/
def countFault (s : State) (i : Nat) : State :=
  let (s, ok) := countOnce s i
  if ok then s else hqOverflow s i

/-! ### Transactions -/

/-- Drop the reservations of an open transaction (R266, R272, R418). -/
def releaseTx (s : State) (x : Item) : State :=
  match x.tx with
  | none => s
  | some t =>
    let s := t.ceremonies.foldl (fun s n => modCer s n fun c => { c with reservedBy := none }) s
    { s with dsp := { s.dsp with reserved := s.dsp.reserved.filter fun r => !(r.owner == x.serial && r.csn.isNone) } }

/-- Persisted keys that a transaction creates. -/
def createdKeys (t : Tx) : List KeyName :=
  t.recs.filterMap fun r => match r.recd with | .keyCreate k => some k.name | _ => none

/-! ### Pool and symmetric jobs of a chain -/

/-- An engine aborts its jobs of the chains that `p` picks (R490): loaded ones leave at once, and the one behind them is first
from tick `t` on; a running one runs on as aborted. -/
def abortEngine (e : PoolEngine) (p : Nat → Bool) (t : Nat) : PoolEngine :=
  let kept := e.loaded.filter fun j => !p j.serial
  let stops := match e.running with | some j => p j.serial && !j.aborted | none => false
  { e with
    loaded := kept
    first := if (kept.head?.map (·.num)) = (e.loaded.head?.map (·.num)) then e.first else t
    running := e.running.map fun j => if p j.serial && !j.aborted then { j with aborted := true, scrub := true } else j
    aborts := min 65535 (e.aborts + (e.loaded.length - kept.length) + b2n stops) }

/-- Abort a pool's jobs of the chains that `p` picks (R127, R490, R519): waiting jobs leave at once, completed results are
discarded. -/
def abortPool {n : Nat} (pool : Pool n) (p : Nat → Bool) (t : Nat) : Pool n :=
  { pool with
    queue := pool.queue.filter fun j => !p j.serial
    done := pool.done.filter fun d => !p d.serial
    engines := pool.engines.map fun e => abortEngine e p t }

/-- A lattice engine stops an aborted job at once (R519); the effects of a fault that the job met follow then (R517, R518). -/
def stopAborted (s : State) : State :=
  (List.range 8).foldl (fun s e =>
    match (vget s.lte.engines e {}).running with
    | some j =>
      if j.aborted = false then s
      else
        let s := { s with lte := s.lte.mod e fun x => { x with running := none } }
        if j.faulted then lteTrouble s e true else s
    | none => s) s

/-- Abort the chain's jobs in both pools. -/
def abortCalls (s : State) (serial : Nat) : State :=
  stopAborted { s with bne := abortPool s.bne (· == serial) (now s), lte := abortPool s.lte (· == serial) (now s) }

/-- Mark jobs of one engine as scrubbed: their outputs are discarded, and staged and saved state is zeroed (R140, R461). -/
def scrubEngine (e : SymEngine) (p : SymJob → Bool) : SymEngine :=
  let f := fun j : SymJob => if p j then { j with scrub := true, out := none } else j
  { e with queue := e.queue.map f, running := e.running.map f, saved := e.saved.map f }

/-- Scrub jobs on every symmetric engine; what they have streamed out stays. -/
def scrubJobs (s : State) (p : SymJob → Bool) : State :=
  let s := flushJobs s p
  { s with cph := s.cph.map fun e => scrubEngine e p, hsh := s.hsh.map fun e => scrubEngine e p,
           cvu := s.cvu.map fun e => scrubEngine e p }

/-! ### Ends of a chain -/

/-- Core cycles of an item from its assignment to now, stalls included (R293): what the clock shows, 93.75 cycles a tick, and
no fewer than its instructions took. -/
def itemCost (s : State) (k : Core) : Nat := max k.cycles ((now s - k.since) * 375 / 4)

/-- Charge an item's core cycles to its class credit and its instance's deficit as it ends or parks (R292, R295). -/
def charge (s : State) (x : Item) (cycles : Nat) : State :=
  if x.cls = 0 then s
  else { s with dsp := { s.dsp with
      credits := vset s.dsp.credits x.cls (vget s.dsp.credits x.cls 0 - (cycles : Int))
      deficits := alSet s.dsp.deficits (x.cls, x.inst) ((alGet s.dsp.deficits (x.cls, x.inst)).getD 0 - (cycles : Int)) } }

/-- The image of the chain is not pinned as of its snapshot (C11, R310). -/
def unpinned (s : State) (x : Item) : Bool :=
  match x.image with
  | some im => !(pinnedImages (cfgAt s x.snap)).contains (im.dom, im.image, im.version)
  | none => true

/-- A held chain broke one of C6 to C9 or C11 (Table 6.3, R309). -/
def breached (s : State) (x : Item) (cycles : Nat) : Bool :=
  x.held && (unpinned s x || decide (6000 < x.strokes) || decide (9000 < x.c0.cycles + cycles) || decide (128 < x.c0.blocks)
    || decide (4 < x.c0.keyLoads) || x.c0.bigKey || x.c0.calls || decide (256 < x.c0.rngBytes))

/-- Count a class-0 breach (R309). -/
def noteBreach (s : State) (c : CoreId) (x : Item) (cycles : Nat) : State :=
  if breached s x cycles then trouble (traceItem s 8 x c.val (x.strokes / 64)) x.inst 15 else s

/-- Free a core (R124): its handles are dropped; LDM stays until the next dispatch (R123). -/
def freeCore (s : State) (c : CoreId) : State :=
  let k := s.core c
  s.setCore c
    { k with
      ctx := { k.ctx with k := Vector.replicate 16 none }
      owner := match k.item with | some x => some x.inst | none => k.owner
      item := none
      pendG := []
      pendK := []
      cycles := 0
      since := 0
      avail := []
      scrLate := [] }

/-- CSN that a reply carries (R56). -/
def replyCsn (x : Item) : Nat := x.committed.getD x.snap

/-- Answer a chain's host (R56, R126, R141); a posted, delayed or sample chain sends nothing. -/
def answerChain (s : State) (x : Item) (status : Nat) (payload : List Byte) : State :=
  match x.origin, x.sess with
  | .host, some id =>
    handReply s id x.committed
      { reqId := x.reqId, status := status, csn := replyCsn x, payload := payload, class0 := x.cls == 0, own := true }
  | _, _ => s

/-- What every end of a chain does (R125, R127). -/
def closeChain (s : State) (x : Item) : State := abortCalls (releaseTx s x) x.serial

/-- End the chain on core `c` with an answer. -/
def endChain (s : State) (c : CoreId) (status : Nat) (payload : List Byte) : State :=
  match (s.core c).item with
  | none => s
  | some x =>
    let k := s.core c
    let s := closeChain s x
    let s := charge (noteBreach s c x k.cycles) x (itemCost s k)
    answerChain (freeCore s c) x status payload

/-- Fault record (Table 3.8). -/
def faultRecord (x : Item) (off : Nat) : List Byte :=
  leBytes 4 off ++ leBytes 4 x.strokes ++ leBytes 2 x.entry ++ leBytes 2 x.conts ++ zeros 4

/-- `MEM_INTEGRITY` on a fetch or load ends the chain and is no program fault (R143). -/
def memEndChain (s : State) (c : CoreId) : State :=
  match (s.core c).item with
  | none => s
  | some x => endChain (scrubJobs s fun j => j.core == c && j.serial == x.serial) c St.memIntegrity []

/-- End a chain that is not on a core: parked, or a ready continuation. -/
def endParked (s : State) (x : Item) (status : Nat) : State := answerChain (closeChain s x) x status []

/-- Symmetric jobs of the item on core `c` are outstanding. -/
def jobsOutstanding (s : State) (c : CoreId) : Bool := !(jobsOf s c).isEmpty

end Sys2Proof.Machine
end

