-- ==== Sys2Proof/Machine/Ins.lean ====
section
/-! DEFINITION. Instances at run time: the drain of Table 7.6, the states of Table 7.5, the handling queue (R345 to R348)
and the commands of this family. -/

namespace Sys2Proof.Machine

/-! ### Stopping work -/

/-- The cores, by number. -/
def allCores : List CoreId := List.finRange 64

/-- Answer of a chain that is stopped (R351): the CSN of its commit, else 0. -/
def stopAnswer (s : State) (x : Item) (status : Nat) : State :=
  match x.origin, x.sess with
  | .host, some id =>
    handReply s id x.committed
      { reqId := x.reqId, status := status, csn := x.committed.getD 0, class0 := x.cls == 0, own := true }
  | _, _ => s

/-- A chain stops with a counted status (D3, D6), or silently (R675). -/
def stopChain (s : State) (x : Item) (status : Option Nat) : State :=
  let s := closeChain s x
  match status with
  | some st => stopAnswer (countStatus s (some x.inst) st) x st
  | none => s

/-- Stop the chain on a core where `p` picks it. -/
def stopCore (p : Item → Bool) (status : Option Nat) (s : State) (c : CoreId) : State :=
  match (s.core c).item with
  | none => s
  | some x => if p x then
      let k := s.core c
      let s := charge (noteBreach s c x k.cycles) x (itemCost s k)
      stopChain (freeCore s c) x status
    else s

/-- Refuse an item that was never dispatched: a host item is answered with CSN 0, any other discarded; each is counted
(D2, R300). -/
def dropItem (s : State) (x : Item) (status : Option Nat) : State :=
  match status with
  | none => s
  | some st =>
    let s := countStatus s (some x.inst) st
    if x.origin = .host then refuse s x.sess x.reqId st (x.cls == 0) true else s

/-- An admitted host item that is refused after all leaves a trace record of kind 3 (R311, Table 6.5). -/
def refuseItem (s : State) (x : Item) (status : Option Nat) : State :=
  dropItem (match x.origin, status with
    | .host, some st => traceItem s 3 x 0 st
    | _, _ => s) x status

/-- Steps D2, D3, D5 and D6 for the items that `p` picks; answers carry `status` (none: no answer and no count). -/
def stopWork (s : State) (p : Item → Bool) (status : Option Nat) : State :=
  let work := s.dsp.work.filter fun w => p w.item
  let parked := s.dsp.parked.filter fun w => p w.item
  let delay := s.dsp.delay.filter fun d => p d.item
  let s := modWork s fun l => l.filter fun w => !p w.item
  let s := { s with dsp := { s.dsp with
    parked := s.dsp.parked.filter fun w => !p w.item
    delay := s.dsp.delay.filter fun d => !p d.item } }
  let s := work.foldl (fun s w => if w.carry.isSome then stopChain s w.item status else refuseItem s w.item status) s
  let s := delay.foldl (fun s d => dropItem s d.item status) s
  let s := allCores.foldl (stopCore p status) s
  parked.foldl (fun s w => stopChain s w.item status) s

/-- Step D4 and R461 on one engine: jobs not started leave, started ones run on and deliver nothing. -/
def drainEngine (p : SymJob → Bool) (e : SymEngine) : SymEngine :=
  let f := fun j : SymJob => if p j then { j with scrub := true, out := none } else j
  { e with queue := e.queue.filter (fun j => !p j), running := e.running.map f, saved := e.saved.map f }

/-- Step D4 on every symmetric engine. -/
def drainJobs (s : State) (p : SymJob → Bool) : State :=
  { s with cph := s.cph.map (drainEngine p), hsh := s.hsh.map (drainEngine p), cvu := s.cvu.map (drainEngine p) }

/-- Started symmetric jobs and running pool jobs of an instance remain (D4, D5). -/
def drainBusy (s : State) (i : Nat) : Bool :=
  (s.cph.toList ++ s.hsh.toList ++ s.cvu.toList).any (fun e => (e.running.toList ++ e.saved).any (fun j => j.inst == i))
    || (s.bne.engines.toList ++ s.lte.engines.toList).any (fun e => e.running.any (fun j => j.inst == i))

/-- Contexts of a core's check-value unit: two per core. -/
def cvIndex (c : CoreId) (n : Nat) : Nat := crewOf c * 16 + c.val % 8 * 2 + n % 2

/-- Clear a core's LDM and both check-value contexts. -/
def clearCoreData (s : State) (c : CoreId) : State :=
  let s := s.setCore c { s.core c with ldm := [] }
  { s with cvctx := vset (vset s.cvctx (cvIndex c 0) {}) (cvIndex c 1) {} }

/-- Step D7: every core whose last item belonged to the instance. -/
def clearOwned (s : State) (i : Nat) : State :=
  allCores.foldl (fun s c =>
    if (s.core c).item.isNone ∧ (s.core c).owner = some i then clearCoreData s c else s) s

/-! ### States -/

/-- Entry to ACTIVE: the first fault window starts (R341). -/
def enterActive (s : State) (i : Nat) : State :=
  modIns s i fun x => { x with state := .active, winStart := now s, winCount := 0 }

/-- Start the drain of Table 7.6 (R343, R349). -/
def startDrain (s : State) (i : Nat) (st ending : InstState) (status : Nat) : State :=
  let s := modIns s i fun x => { x with state := st, ending := ending, draining := true }
  let s := flushJobs s fun j => j.inst == i
  drainJobs (stopWork s (fun x => x.inst == i) (some status)) fun j => j.inst == i

/-- A reset, from ACTIVE or QUIESCING (Table 7.5). -/
def resetInst (s : State) (x : InstRt) : State :=
  startDrain s x.id .resetting (if x.state = .active then .active else .disabled) St.instanceReset

/-- Enable or disable becomes visible (Table 7.5). -/
def adminChange (s : State) (i : Nat) (enable : Bool) : State :=
  match insRt s i with
  | none => s
  | some x =>
    if enable then
      match x.state with
      | .disabled => if x.draining then modIns s i fun x => { x with ending := .active } else enterActive s i
      | .quiescing => enterActive s i
      | _ => s
    else match x.state with
      | .active => modIns s i fun x => { x with state := .quiescing, quiesceAt := now s }
      | .resetting => modIns s i fun x => { x with ending := .disabled }
      | .faulted => modIns s i fun x =>
          if x.draining then { x with ending := .disabled } else { x with state := .disabled }
      | _ => s

/-- Runtime states at start and at takeover (R344), with a Log record for each instance of `faulted`, those that were FAULTED
where they were last served. -/
def restartInsts (s : State) (faulted : List Nat) : State :=
  let s := faulted.foldl (fun s i => logFull s (Config.logEvent 3 2).1 3 (Config.logEvent 3 2).2 true i []) s
  { s with ins := (cfgV s).insts.map fun p =>
      { id := p.1, state := if p.2.enabled then .active else .disabled, winStart := now s,
        tokens := p.2.share.c0Burst * 16000000, tokenAt := now s } }

/-! ### Commands -/

/-- A manager command enters the handling queue, or is rejected (R345 to R347, R356). -/
def insCommand (s : State) (i : Nat) (e : HqEvent) : State :=
  match blockEn s 3 0, insRt s i with
  | true, some x =>
    if x.hq.length < 8 then modIns s i fun x => { x with hq := x.hq ++ [e] } else hqOverflow s i
  | _, _ => setBit s 0x00030008 2

/-- INS_CMD_RESET (R345, R347, R356). -/
def execInsCmdReset (i : Nat) (s : State) : Host.Outcome State Fault Refusal := .next (insCommand s i .reset)

/-- INS_CMD_CLEAR (R345, R347, R356). -/
def execInsCmdClear (i : Nat) (s : State) : Host.Outcome State Fault Refusal := .next (insCommand s i .clear)

/-- Handle one event (R345, R347, R348). -/
def handleEvent (s : State) (x : InstRt) (e : HqEvent) : State :=
  match e with
  | .reset =>
    if x.state = .active ∨ x.state = .quiescing then resetInst s x else setBit s 0x00030008 2
  | .clear => if x.state = .faulted then enterActive s x.id else setBit s 0x00030008 2
  | .faultLimit =>
    if x.state = .active ∨ x.state = .quiescing then startDrain s x.id .faulted .faulted St.instanceFaulted else s

/-- A limit that a full handling queue kept out enters it once there is room (R346; log 104). -/
def raiseLimit (s : State) (i : Nat) : State :=
  match insRt s i with
  | some x => if limitReached s x && decide (x.hq.length < 8) then modIns s i fun x => { x with hq := x.hq ++ [.faultLimit] } else s
  | none => s

/-- HANDLING_QUEUE_SERVE (R345, R347, R348, R356): none while `en` is 0. A clear waits while the FAULTED drain runs; a reset
of an instance that is RESETTING is not performed. -/
def execHandlingQueueServe (i : Nat) (s : State) : Host.Outcome State Fault Refusal :=
  .next <| match insRt s i with
  | some x =>
    match x.hq with
    | [] => s
    | e :: rest =>
      if blockEn s 3 0 = false ∨ (e = .clear ∧ x.state = .faulted ∧ x.draining = true) then s
      else raiseLimit (handleEvent (modIns s i fun x => { x with hq := rest }) x e) i
  | none => s

/-- FAULT_WINDOW_BOUNDARY (R341): the window of `fault_window` ms has passed. -/
def execFaultWindowBoundary (i : Nat) (s : State) : Host.Outcome State Fault Refusal :=
  .next <| match insRt s i, (cfgV s).share i with
  | some x, some sh =>
    let w := sh.faultWindow * tickMs
    if blockEn s 3 0 = true ∧ w ≠ 0 ∧ x.winStart + w ≤ now s then
      modIns s i fun x => { x with winStart := x.winStart + (now s - x.winStart) / w * w, winCount := 0 }
    else s
  | _, _ => s

/-- QUIESCE_LIMIT_EXPIRY (R340, Table 7.5). -/
def execQuiesceLimitExpiry (i : Nat) (s : State) : Host.Outcome State Fault Refusal :=
  .next <| match insRt s i with
  | some x =>
    if x.state = .quiescing ∧ x.quiesceAt + clamp 1 60000 (fld s 0x00030030 0 16) * tickMs ≤ now s then resetInst s x
    else s
  | none => s

/-- INSTANCE_QUIESCED (Table 7.5): no item of the instance remains. -/
def execInstanceQuiesced (i : Nat) (s : State) : Host.Outcome State Fault Refusal :=
  .next <| match insRt s i with
  | some x =>
    if x.state = .quiescing ∧ instOcc s i = 0 then modIns s i fun x => { x with state := .disabled } else s
  | none => s

/-- DRAIN_COMPLETE (steps D7 and D8, R350): the instance takes its ending state. -/
def execDrainComplete (i : Nat) (s : State) : Host.Outcome State Fault Refusal :=
  .next <| match insRt s i with
  | some x =>
    if x.draining = true ∧ drainBusy s i = false then
      let s := modIns (clearOwned s i) i fun x => { x with draining := false }
      if x.ending = .active then enterActive s i else modIns s i fun y => { y with state := x.ending }
    else s
  | none => s

end Sys2Proof.Machine
end

