-- ==== Sys2Proof/Machine/RecBytes.lean ====
section
/-! DEFINITION. The bytes of records: configuration, quorum, program and profile records (Tables 7.1 to 7.4, 9.1, 9.3 to 9.5,
R782), key records in clear and sealed (Tables 8.2 and 8.3, R367 to R369), and what the chain digest covers (R635). -/

namespace Sys2Proof.Machine

/-! ### Configuration records -/

/-- Share block (Table 7.3). -/
def shareBytes (x : Share) : List Byte :=
  leBytes 2 x.weight ++ leBytes 1 x.ports ++ zeros 1 ++ leBytes 4 x.sessions ++ leBytes 4 x.admits ++ leBytes 4 x.kcQuota
    ++ leBytes 4 x.c0Rate ++ leBytes 1 x.c0Burst ++ zeros 3 ++ leBytes 2 x.bneCredits ++ leBytes 2 x.lteCredits
    ++ leBytes 2 x.faultLimit ++ zeros 2 ++ leBytes 4 x.faultWindow ++ zeros 28

/-- Queue block (Table 7.4). -/
def queueBytes (x : QBlock) : List Byte :=
  leBytes 2 x.inst ++ leBytes 2 x.replyCap ++ leBytes 4 x.depth ++ leBytes 4 x.budget ++ leBytes 4 x.c0Offset ++ zeros 16

/-- Officer credential (Table 9.1). -/
def officerBytes (o : Officer) : List Byte :=
  leBytes 1 o.slot ++ leBytes 1 o.alg ++ leBytes 1 o.roles ++ zeros 5 ++ leBytes 8 o.tag ++ o.pkDigest ++ zeros 16

/-- Policy entry (R408). -/
def policyBytes (e : PolicyEntry) : List Byte := leBytes 1 e.cls ++ leBytes 1 e.k ++ zeros 2 ++ leBytes 4 e.mask

/-- Type, target and body of a record. -/
def confParts : ConfRec → Nat × Nat × List Byte
  | .domainCreate d => (0x0701, d, zeros 16)
  | .domainDelete d => (0x0702, d, [])
  | .instCreate i d sh => (0x0710, i, leBytes 2 d ++ zeros 6 ++ shareBytes sh)
  | .instDelete i => (0x0711, i, [])
  | .adminState i e => (0x0712, i, leBytes 1 (b2n e) ++ zeros 7)
  | .shareChange i sh => (0x0713, i, shareBytes sh)
  | .queueConfigure q b => (0x0720, q, queueBytes b)
  | .queueRemove q => (0x0721, q, [])
  | .officerSet d l => (0x0901, d, l.flatMap officerBytes)
  | .policy d l => (0x0902, d, l.flatMap policyBytes)
  | .settings d x => (0x0903, d, leBytes 8 x.signer ++ leBytes 1 (b2n x.backupAllowed) ++ zeros 7 ++ x.tr34Anchor)
  | .usage d u => (0x0904, d, leBytes 1 u.number ++ leBytes 1 u.classes ++ leBytes 1 (b2n u.fixOnly) ++ zeros 1
      ++ leBytes 2 u.inst ++ zeros 10)
  | .imageLoad d i v dig => (0x0920, d, leBytes 4 i ++ leBytes 4 v ++ dig ++ zeros 8)
  | .imageUnload d i v => (0x0921, d, leBytes 4 i ++ leBytes 4 v ++ zeros 8)
  | .bind d q i v => (0x0922, d, leBytes 2 q ++ zeros 2 ++ leBytes 4 i ++ leBytes 4 v ++ zeros 4)
  | .unbind d q => (0x0923, d, leBytes 2 q ++ zeros 14)
  | .raiseFloor d i f => (0x0924, d, leBytes 4 i ++ leBytes 4 f ++ zeros 8)
  | .profile p => (0x1201, 0, leBytes 1 p.code ++ leBytes 1 (b2n p.blind128) ++ leBytes 1 p.vas ++ zeros 5)

/-- A record with its header (Table 7.1). -/
def confBytes (r : ConfRec) : List Byte :=
  let p := confParts r
  leBytes 2 p.1 ++ leBytes 2 (16 + p.2.2.length) ++ leBytes 4 p.2.1 ++ zeros 8 ++ p.2.2

/-! ### Key records -/

/-- Offsets 0 to 15 of record `i` of a key. -/
def recHead (k : KeyRec) (i : Nat) : List Byte :=
  leBytes 8 (keyIdOf k.name) ++ leBytes 2 1 ++ leBytes 1 (recordsOf k.attrs.alg k.attrs.size) ++ leBytes 1 i ++ zeros 4

/-- Offsets 16 to 103 of record 0, less `wseq` (Table 8.2). -/
def recFields (k : KeyRec) : List Byte :=
  attrBytes k.attrs ++ leBytes 8 k.ctrBase ++ leBytes 5 k.ivFixed ++ zeros 3 ++ leBytes 8 k.csnCreated
    ++ leBytes 8 k.csnChanged ++ slice k.kcv 0 3 ++ zeros 5 ++ leBytes 2 k.policy ++ zeros 6

/-- Material that record `i` holds: 128 bytes in record 0 and 216 in a continuation (R368), zero beyond the key's. -/
def recMaterial (k : KeyRec) (i : Nat) : List Byte :=
  if i = 0 then slice k.material 0 128 else slice k.material (128 + 216 * (i - 1)) 216

/-- Record `i` with `mat` in place of its material (Tables 8.2 and R368). -/
def recLayout (k : KeyRec) (i wseq : Nat) (mat tag : List Byte) : List Byte :=
  if i = 0 then recHead k 0 ++ recFields k ++ leBytes 8 wseq ++ zeros 8 ++ mat ++ tag
  else recHead k i ++ mat.take 128 ++ leBytes 8 wseq ++ mat.drop 128 ++ tag

/-- The additional data of its seal: every byte but the material and the tag, in offset order (R369). -/
def recAad (k : KeyRec) (i wseq : Nat) : List Byte :=
  if i = 0 then recHead k 0 ++ recFields k ++ leBytes 8 wseq ++ zeros 8 else recHead k i ++ leBytes 8 wseq

/-- The sealed record `i` under K_record (R369). -/
def sealedRecord (kRecord : List Byte) (k : KeyRec) (i wseq : Nat) : List Byte :=
  let iv := leBytes 4 (Config.recordNumber (keyIdOf k.name) i) ++ leBytes 8 wseq
  let c := gcmSeal kRecord iv (recAad k i wseq) (recMaterial k i)
  recLayout k i wseq c.1 c.2

/-- The sealed records of a key at the write sequences of its records. -/
def sealedRecords (s : State) (kRecord : List Byte) (k : KeyRec) : List (List Byte) :=
  let w := (alGet s.ksc.recWseq k.name).getD []
  (List.range (recordsOf k.attrs.alg k.attrs.size)).map fun i => sealedRecord kRecord k i (w.getD i 0)

/-- The records of a key with the material in clear (Table 9.14, R634, R635); `wseq` and the tags, which each unit makes for
itself, are zero (log 44). -/
def clearRecords (k : KeyRec) : List (List Byte) :=
  (List.range (recordsOf k.attrs.alg k.attrs.size)).map fun i => recLayout k i 0 (recMaterial k i) (zeros 16)

/-- The descriptor of a stored record: as `parseAttrs`, with generated-inside in bit 3 of `flags`. -/
def parseStoredAttrs (b : List Byte) : Option Attrs :=
  let flags := fieldAt b 7 1
  (parseAttrs (b.take 7 ++ leBytes 1 (flags % 8) ++ b.drop 8)).bind fun a =>
    if flags < 16 then some { a with generated := bitOf flags 3 } else none

/-- The key of its records in clear, and the records left over. -/
def parseKey (l : List (List Byte)) : Option (KeyRec × List (List Byte)) :=
  match l with
  | [] => none
  | b :: rest =>
    let n := fieldAt b 10 1
    match parseStoredAttrs (slice b 16 32) with
    | none => none
    | some a =>
      let m := slice b 112 128 ++ (rest.take (n - 1)).flatMap fun c => slice c 16 128 ++ slice c 152 88
      if fieldAt b 8 2 ≠ 1 ∨ fieldAt b 11 1 ≠ 0 ∨ n ≠ recordsOf a.alg a.size ∨ rest.length < n - 1 then none
      else some
        ({ name := nameOfId (fieldAt b 0 8), attrs := a, ctrBase := fieldAt b 48 8, ivFixed := fieldAt b 56 5
           csnCreated := fieldAt b 64 8, csnChanged := fieldAt b 72 8, kcv := slice b 80 3, policy := fieldAt b 88 2
           material := m.take (materialLen a.alg a.size) }, rest.drop (n - 1))

/-- The keys of a list of records, at most `fuel` of them; none where a record breaks its layout. -/
def parseKeys : Nat → List (List Byte) → Option (List KeyRec)
  | _, [] => some []
  | 0, _ => none
  | fuel + 1, l => (parseKey l).bind fun p => (parseKeys fuel p.2).map (p.1 :: ·)

/-- Consecutive chunks of `w` bytes. -/
def chunks (w : Nat) (b : List Byte) : List (List Byte) :=
  (List.range (ceilDiv b.length w)).map fun i => (b.drop (w * i)).take w

/-! ### Commits -/

/-- A record inside a commit block: configuration records as they stand, a new key as its records in clear, a change of a key by
its ID with what changes (log 105). -/
def recBytes : Rec → List Byte
  | .conf r => confBytes r
  | .keyCreate k => (clearRecords k).flatten
  | .keyAttrs n a => leBytes 8 (keyIdOf n) ++ attrBytes a
  | .keyDelete n => leBytes 8 (keyIdOf n)
  | .reserve n b => leBytes 8 (keyIdOf n) ++ leBytes 8 b

/-- The records of a commit, back to back. -/
def commitBytes (l : List Rec) : List Byte := l.flatMap recBytes

/-- D_n (R635). -/
def chainDigest (before : List Byte) (n : Nat) (l : List Rec) : List Byte :=
  (sha3_256 (before ++ leBytes 8 n ++ commitBytes l)).take 16

/-- D of the last commit of the history. -/
def lastDigest (s : State) : List Byte := ((s.ksc.commits.getLast?.map (·.digest)).getD s.ksc.digest0)

/-- Header of a commit block (R393): the CSN, the record count and the length. -/
def commitHeader (n count len : Nat) : List Byte := leBytes 8 n ++ leBytes 4 count ++ leBytes 4 len

/-- A commit block as the journal engine seals it under K_journal (R393): header, ciphertext, tag. -/
def sealedCommit (kJournal : List Byte) (m : Commit) (wseq : Nat) : List Byte :=
  let b := commitBytes m.recs
  let h := commitHeader m.csn m.recs.length b.length
  let c := gcmSeal kJournal (leBytes 12 wseq) h b
  h ++ c.1 ++ c.2

end Sys2Proof.Machine
end

