-- ==== Sys2Proof/Machine/Store.lean ====
section
/-! DEFINITION. Commits: how one is submitted, sent to the peer, and what each of its records does when it becomes visible
(R47 to R59, R266, R318, R335 to R337, R388, R783); and the checks of Table 1.4 that need no session. -/

namespace Sys2Proof.Machine

/-! ### Admission checks 5 to 15 (Table 1.4) -/

/-- The pair is DIVERGENT for an entry (R646). -/
def divergentFor (s : State) (d i v e : Nat) : Bool :=
  s.prl.state == .divergent &&
    (s.prl.divAll || s.prl.divList.any fun x =>
      x.dom == d && x.image == i && x.version == v && (x.entry == e || x.entry == 0xFFFF))

/-- Rows 7 to 9 for an instance. -/
def stateCheck (s : State) (i : Nat) : Nat :=
  match insRt s i with
  | none => St.unknownQueue
  | some x => match x.state with
    | .disabled => St.unknownQueue
    | .quiescing | .resetting => St.instanceReset
    | .faulted => St.instanceFaulted
    | .active => 0

/-- Rows 5 to 12 for a queue and entry selector, from domain `dom` and, for a host, port `port`. -/
def targetCheck (s : State) (dom : Nat) (port : Option Nat) (q sel : Nat) : Nat :=
  let c := cfgV s
  match alGet c.queues q, c.binding q with
  | some b, some (d, i, v) =>
    match findImage s d i v with
    | none => St.unknownQueue
    | some im =>
      if ((alGet c.insts b.inst).map (·.dom)) ≠ some dom then St.unknownQueue
      else if stateCheck s b.inst ≠ 0 then stateCheck s b.inst
      else if port.any (fun p => !bitOf (((c.share b.inst).map (·.ports)).getD 0) p) = true then St.notAuthorised
      else if (imageEntry im sel).isNone then St.badFormat
      else if divergentFor s d i v sel then St.divergent
      else 0
  | _, _ => St.unknownQueue

/-- Rows 14 and 15. -/
def roomCheck (s : State) (q : Nat) : Nat :=
  let c := cfgV s
  match alGet c.queues q with
  | none => St.unknownQueue
  | some b =>
    if ((c.share b.inst).map (·.admits)).getD 0 ≤ instOcc s b.inst then St.shareLimit
    else if b.depth ≤ queueOcc s q then St.qfull else 0

/-- Status for which a released item is discarded (R266, R300); 0 where it may join its queue. -/
def releaseCheck (s : State) (x : Item) : Nat :=
  let c := cfgV s
  match alGet c.queues x.queue, c.binding x.queue with
  | some b, some _ => if b.inst = x.inst then stateCheck s x.inst else St.unknownQueue
  | _, _ => St.unknownQueue

/-- Join the queue as an admitted item, or be discarded and counted (R266, R300). -/
def joinOrDrop (s : State) (x : Item) : State :=
  let st := releaseCheck s x
  if st = 0 then addWork s { x with admitted := s.mer.t }
  else traceItem (countStatus s (some x.inst) st) 7 x 0 st

/-- A delay-list entry (R296, R297): coarse entries lie in the 1 ms bucket of their due tick. -/
def addDelay (s : State) (x : Item) (due : Nat) (coarse : Bool) : State :=
  { s with dsp := { s.dsp with
      delay := s.dsp.delay ++ [{ item := x, due := due, seq := s.dsp.nextSeq, coarse := coarse }]
      nextSeq := (s.dsp.nextSeq + 1) % 2 ^ 32 } }

/-! ### Submission -/

/-- A commit joins the unit's history: the journal engine seals its block under the next store write sequence (R369, R393). -/
def journalCommit (s : State) (m : Commit) : State :=
  { s with ksc := { s.ksc with
      commits := s.ksc.commits ++ [m], wseq := s.ksc.wseq + 1, blockWseq := s.ksc.blockWseq ++ [(m.csn, s.ksc.wseq + 1)] } }

/-- The loads among records take the files that pass R146 as of `c` (line 93 of chapter 09): an upload that follows replaces
none of them. -/
def fixLoads (s : State) (c : Cfg) (recs : List Rec) : State :=
  recs.foldl (fun s r => match r with
    | .conf (.imageLoad d i v dig) => match loadable s c d i v dig, alGet s.ksc.staged (d, i, v) with
      | some _, some b => { s with ksc := { s.ksc with loading := alSet s.ksc.loading (d, i, v) b } }
      | _, _ => s
    | _ => s) s

/-- Content of a COMMIT (R394, R634 to R636): header, requester tuple, chain digest and records. -/
def commitMsg (m : Commit) : List Nat :=
  let b := commitBytes m.recs
  let q := match m.requester with
    | some r => leBytes 4 r.sess ++ leBytes 4 r.reqId ++ r.digest
    | none => []
  m.csn :: m.recs.length :: (commitHeader m.csn m.recs.length b.length ++ q ++ m.digest ++ b).map (·.toNat)

/-- Give records the next CSN and their chain digest, hand them to the journal engine, and send them to a peer that is joined
or catches up (R47, R393, R394, R635). -/
def submitCommit (s : State) (recs : List Rec) (req : Option Requester := none) : Nat × State :=
  let n := lastCsn s + 1
  let m : Commit := { csn := n, recs := recs, requester := req, digest := chainDigest (lastDigest s) n recs }
  let s := journalCommit s m
  (n, if s.prl.joined || s.prl.peerJoining then sendPlp s 2 (commitMsg m) else s)

/-! ### Ceremonies -/

/-- A ceremony that ends holds no component, no key and no reservation any more (R424). -/
def Ceremony.ended (c : Ceremony) (st : CerState) : Ceremony :=
  { c with state := st, components := [], dk := [], reservedBy := none }

/-- Cancel the open ceremonies that `p` picks (R420). -/
def cancelCers (s : State) (p : Ceremony → Bool) : State :=
  { s with qrm := { s.qrm with
    cers := s.qrm.cers.map fun x =>
      if p x = true ∧ (x.state = .open ∨ x.state = .complete) then
        x.ended .cancelled
      else x } }

/-- Bytes of the officer copy of R422. -/
def officerCopyBytes (l : List Officer) (p : List PolicyEntry) : List Byte :=
  l.flatMap (fun o => leBytes 1 o.slot ++ leBytes 1 o.alg ++ leBytes 1 o.roles ++ zeros 5 ++ leBytes 8 o.tag
      ++ o.pkDigest ++ zeros 16)
    ++ p.flatMap (fun e => leBytes 1 e.cls ++ leBytes 1 e.k ++ zeros 2 ++ leBytes 4 e.mask)

/-- The copy of the module officer set and policy, and its digest in Binnacle (R422). -/
def copyOfficers (s : State) : State :=
  let c := cfgV s
  let l := (alGet c.officers 0).getD []
  let p := (alGet c.policies 0).getD []
  { s with qrm := { s.qrm with copy := some (l, p) }
           bin := { s.bin with officerDigest := some (cryptoBytes .sha3 [leBytes 1 0x12, officerCopyBytes l p] 32) } }

/-- The copy of R422 follows a history that changed without a commit becoming visible. -/
def followCopy (s : State) : State :=
  let now := ((alGet (cfgV s).officers 0).getD [], (alGet (cfgV s).policies 0).getD [])
  if s.qrm.copy.getD ([], []) = now then s else copyOfficers s

/-- The image that a load of the given digest makes resident: from the file that passed R146 when the load was submitted, else
from an upload that passes it now (line 93 of chapter 09; log 117). -/
def loadedImage (s : State) (c : Cfg) (k : Nat × Nat × Nat) (dig : List Byte) : Option Image :=
  (((alGet s.ksc.loading k).bind imageOf).filter fun y => y.digest == dig).orElse fun _ => loadable s c k.1 k.2.1 k.2.2 dig

/-- The program store holds the resident images of the committed state, out of those it held and the files of their loads (R150,
R744), and the caches hold the pinned ones (R310). -/
def followImages (s : State) : State :=
  let c := cfgV s
  let find := fun (x : (Nat × Nat × Nat) × List Byte) =>
    (s.ksc.images.find? fun y => (y.dom, y.image, y.version) == x.1 && y.digest == x.2).orElse
      fun _ => loadedImage s c x.1 x.2
  fillPins { s with ksc := { s.ksc with images := c.images.filterMap find } }

/-! ### Visibility -/

/-- First whole Meridian second at least 10 ms ahead (R650, R783). -/
def nextSecond (t : Nat) : Nat := ceilDiv (t + 10 * tickMs) tickS * tickS

/-- Change an invocation counter. -/
def modCounter (s : State) (n : KeyName) (f : Counter → Counter) : State :=
  { s with ksc := { s.ksc with counters := alSet s.ksc.counters n (f ((alGet s.ksc.counters n).getD {})) } }

/-- Blocks that hold a sealed copy of a key: those of its records, and of the commit blocks that carry its material (R379). -/
def copiesOf (s : State) (n : KeyName) : List Nat :=
  let makes := fun m : Commit => m.recs.any fun r => match r with | .keyCreate k => k.name == n | _ => false
  ((alGet s.ksc.recWseq n).getD []).map Config.copyBlock
    ++ (s.ksc.commits.filter makes).filterMap fun m => (alGet s.ksc.blockWseq m.csn).map Config.copyBlock

/-- Queue superseded or deleted copies of a key for erasure (R379). -/
def scheduleErase (s : State) (n : KeyName) (blocks : List Nat) : State :=
  let new := blocks.eraseDups.filter fun b => !s.ksc.erase.any fun e => e.key == n && e.block == b
  { s with ksc := { s.ksc with erase := s.ksc.erase ++ new.map fun b => { key := n, block := b, since := now s } } }

/-- The delete of a key becomes visible: its material is to be overwritten, and its sealed copies erased (R378, R379). -/
def deleteVisible (s : State) (n : KeyName) : State :=
  let s := scheduleErase s n (copiesOf s n)
  { s with ksc := { s.ksc with deleted := s.ksc.deleted ++ [n] } }

/-- The delete of a domain becomes visible: its keys are deleted, its images are gone, and its records are to be erased (R321).
-/
def deleteDomain (c : Cfg) (s : State) (d : Nat) : State :=
  let s := (c.keys.filter fun k => k.name.dom == d).foldl (fun s k => deleteVisible s k.name) s
  { s with ksc := { s.ksc with
      images := s.ksc.images.filter (fun x => x.dom != d)
      erasing := s.ksc.erasing.filter (· != d) ++ [d] } }

/-- What a record deletes. -/
def deletesOf (c : Cfg) (s : State) (r : Rec) : State :=
  match r with
  | .keyDelete n => deleteVisible s n
  | .conf (.domainDelete d) => deleteDomain c s d
  | _ => s

/-- The token bucket of an instance brought to elapsed tick `t` under a share: r tokens a second up to b (R284). -/
def InstRt.settle (x : InstRt) (sh : Share) (t : Nat) : InstRt :=
  { x with tokens := min (sh.c0Burst * 16000000) (x.tokens + sh.c0Rate * (t - x.tokenAt)), tokenAt := t }

/-- A queue remove becomes visible (R336). -/
def emptyQueue (s : State) (q : Nat) : State :=
  let gone := s.dsp.work.filter fun w => w.carry.isNone && w.item.queue == q
  let s := modWork s fun l => l.filter fun w => !(w.carry.isNone && w.item.queue == q)
  gone.foldl (fun s w => refuseItem s w.item (some St.unknownQueue)) s

/-- What a configuration record does when it becomes visible, beside the configuration itself; `c` is the configuration
before it. -/
def confVisible (c : Cfg) (s : State) (r : ConfRec) : State :=
  match r with
  | .domainDelete d =>
    cancelCers (deleteDomain c s d) fun x => x.scope == d
  | .instCreate i _ sh =>
    { s with
      ins := s.ins.filter (fun x => x.id != i) ++ [{ id := i, tokens := sh.c0Burst * 16000000, tokenAt := now s }]
      log := { s.log with trbInst := s.log.trbInst.filter (fun x => x.1.1 != i) } }
  | .instDelete i =>
    let s := { s with ins := s.ins.filter fun x => x.id != i }
    (s.net.sessions.filter fun x => x.home == i && !x.mgmt).foldl (fun s x => closeSess s x.id St.sessionExpired 15) s
  | .adminState i e => adminChange s i e
  | .shareChange i sh =>
    let old := ((c.share i).map (·.c0Rate)).getD 0
    let was := c.share i
    modIns s i fun x =>
      if old = 0 ∧ 0 < sh.c0Rate then { x with tokens := sh.c0Burst * 16000000, tokenAt := now s }
      else
        let y := match was with
          | some w => x.settle w (now s)
          | none => x
        { y with tokens := min y.tokens (sh.c0Burst * 16000000) }
  | .queueRemove q => emptyQueue s q
  | .officerSet d _ | .policy d _ =>
    let s := cancelCers s fun x => x.scope == d
    if d = 0 then copyOfficers s else s
  | .imageLoad d i v dig =>
    match loadedImage s c (d, i, v) dig with
    | some x =>
      { s with ksc := { s.ksc with
        images := s.ksc.images.filter (fun y => !(y.dom == d && y.image == i && y.version == v)) ++ [x]
        staged := if (alGet s.ksc.loading (d, i, v)).all (some · == alGet s.ksc.staged (d, i, v)) then
          alDel s.ksc.staged (d, i, v) else s.ksc.staged
        loading := alDel s.ksc.loading (d, i, v) } }
    | none => s
  | .imageUnload d i v =>
    { s with ksc := { s.ksc with images := s.ksc.images.filter fun y => !(y.dom == d && y.image == i && y.version == v) } }
  | .profile p => { s with pwr := { s.pwr with pending := some (p, nextSecond s.mer.t) } }
  | .domainCreate _ | .queueConfigure _ _ | .settings _ _ | .usage _ _ | .bind _ _ _ _ | .unbind _ _
  | .raiseFloor _ _ _ => s

/-- What a record does when it becomes visible. -/
def recVisible (c : Cfg) (s : State) (r : Rec) : State :=
  match r with
  | .conf r => confVisible c s r
  | .keyCreate k =>
    if k.restored then s else modCounter s k.name fun x => { x with limit := 65536, base := 0, fresh := false }
  | .keyAttrs _ _ => s
  | .keyDelete n => deleteVisible s n
  | .reserve n b => modCounter s n fun x =>
      if x.fresh then { next := b, limit := b + 65536, base := b, fresh := false } else { x with limit := b + 65536 }

/-- A reserved post or delay whose commit is visible (R266). -/
def releasePost (s : State) (r : Reserved) : State :=
  match r.due with
  | some t => addDelay s r.item t (decide (s.mer.t + 2 ^ 24 ≤ t))
  | none => joinOrDrop s r.item

/-- The role held: DIVERGENT keeps the one held on entry (Table 16.2). -/
def roleOf (s : State) : PairState := if s.prl.state = .divergent then s.prl.role else s.prl.state

/-- This unit serves (Table 16.2). -/
def serves (s : State) : Bool := roleOf s == .active || roleOf s == .single

/-- V advances to a commit: its records take effect, its reserved posts and its held reply leave (R52, R55, R57, R266,
R318). -/
def makeVisible (s : State) (m : Commit) : State :=
  let c := cfgAt s (m.csn - 1)
  let s := { s with ksc := { s.ksc with
    v := m.csn
    erasedTo := max s.ksc.erasedTo m.csn
    tuples := s.ksc.tuples.map fun t =>
      if t.2.1 = m.csn ∧ serves s = true then (t.1, t.2.1, !s.prl.joined, t.2.2.2) else t
    commits := s.ksc.commits.map fun x => if x.csn = m.csn ∧ serves s = true then { x with single := !s.prl.joined } else x } }
  let s := fillPins (m.recs.foldl (recVisible c) s)
  let go := s.dsp.reserved.filter fun r => r.csn == some m.csn
  let s := { s with dsp := { s.dsp with reserved := s.dsp.reserved.filter fun r => !(r.csn == some m.csn) } }
  releaseHeld (go.foldl releasePost s)

/-- Make every commit up to CSN `n` visible, in CSN order (R52). -/
def advanceV (s : State) (n : Nat) : State :=
  (s.ksc.commits.filter fun m => decide (s.ksc.v < m.csn ∧ m.csn ≤ n)).foldl makeVisible s

end Sys2Proof.Machine
end

