-- ==== Sys2Proof/Machine/Profile.lean ====
section
/-! DEFINITION. Profiles and power domains (chapter 20 "Profiles", R781 to R786; Tables 20.6, 21.4, 21.6), and the commands
of this family. -/

namespace Sys2Proof.Machine

/-- Numbers from `a` to `b`. -/
def upTo (a b : Nat) : List Nat := (List.range (b + 1 - a)).map (a + ·)

/-- Power domains that the variant has (R796). -/
def presentDomains : Variant → List Nat
  | .wx7480 => upTo 0 63
  | .wx7440 => [0, 2, 4, 6] ++ upTo 16 23 ++ upTo 32 35 ++ [40, 44, 45, 46, 48, 49] ++ upTo 52 59 ++ [61, 63]

/-- Domains that a profile powers down (Tables 20.6, 21.6). -/
def downDomains (v : Variant) (profile : Nat) : List Nat :=
  match v, profile with
  | .wx7480, 1 => upTo 28 31 ++ [38, 39]
  | .wx7480, 2 => upTo 4 15 ++ upTo 18 31 ++ upTo 33 39
  | .wx7440, 1 => [22, 23, 35]
  | .wx7440, 2 => [2, 4, 6] ++ upTo 17 23 ++ upTo 33 35
  | _, _ => []

/-- Input power cap in 0.1 W (Table 21.4). -/
def capDw (v : Variant) (profile : Nat) : Nat :=
  match v, profile with
  | .wx7480, 0 => 1100 | .wx7480, 1 => 850 | .wx7480, _ => 450
  | .wx7440, 0 => 620 | .wx7440, 1 => 480 | .wx7440, _ => 260

/-- A domain is powered and takes new work (R784). -/
def domOn (s : State) (d : Nat) : Bool :=
  s.pwr.domains.contains d && !s.pwr.goingDown.contains d && !s.pwr.goingUp.contains d

/-- A crew takes items (R784). -/
def crewOn (s : State) (k : Nat) : Bool := domOn s (2 * k)

/-- Domain of a crew's engine cluster (Table 21.6). -/
def clusterDomain (v : Variant) (k : Nat) : Nat := match v with
  | .wx7480 => 2 * k + 1
  | .wx7440 => 2 * k

/-- A crew's engines are powered: they serve the crew's running chains until the crew powers down. -/
def clusterOn (s : State) (k : Nat) : Bool :=
  let d := clusterDomain s.variant k
  s.pwr.domains.contains d && !s.pwr.goingUp.contains d

/-- Coverage that a profile loads into `PRL_COVER` (Table 16.7, R642). -/
def coverOf (profile : Nat) : BitVec 32 := if profile = 2 then 0x8880 else 0x6660

/-- Verify-after-sign in force (R782, Table 20.6). -/
def vasOn (s : State) : Bool :=
  match s.pwr.committed.vas with
  | 1 => true
  | 2 => false
  | _ => s.pwr.effective != 0

/-- Apply a profile as the effective one (R783, R784, R786). -/
def applyProfile (s : State) (p : Nat) (forced : Bool) : State :=
  let old := s.pwr.effective
  let down := downDomains s.variant p
  let on := (presentDomains s.variant).filter fun d => !down.contains d
  let s := { s with pwr := { s.pwr with
    effective := p
    goingDown := s.pwr.domains.filter fun d => down.contains d
    goingUp := (s.pwr.goingUp.filter fun d => !down.contains d) ++
      on.filter fun d => !s.pwr.domains.contains d && !s.pwr.goingUp.contains d
    domains := s.pwr.domains ++ on.filter fun d => !s.pwr.domains.contains d } }
  let s := store s 0x000C0014 (coverOf p)
  logEvent s 0x1201 0x12 (if forced then 2 else 1) [old, p, b2n forced]

/-- The profile change that is due at T: a record at its S, or the end of a forced profile at its whole second (R783, R786). -/
def switchProfile (s : State) : State :=
  let end_ := match s.pwr.unforceAt with
    | some t => decide (t ≤ s.mer.t)
    | none => false
  let s := if end_ then { s with pwr := { s.pwr with forced := false, unforceAt := none } } else s
  match s.pwr.pending with
  | some (p, t) =>
    if t ≤ s.mer.t then
      let s := { s with pwr := { s.pwr with committed := p, pending := none } }
      if s.pwr.forced then s else applyProfile s p.code false
    else if end_ then applyProfile s s.pwr.committed.code false else s
  | none => if end_ then applyProfile s s.pwr.committed.code false else s

/-- PROFILE_SWITCH (R783). -/
def execProfileSwitch (s : State) : Host.Outcome State Fault Refusal := .next (switchProfile s)

/-- A symmetric engine holds a job. -/
def engineBusy (e : SymEngine) : Bool := !e.jobs.isEmpty

/-- A crew holds an item or a job. -/
def crewBusy (s : State) (k : Nat) : Bool :=
  ((s.cores.toList.zip (List.range 64)).any fun p => p.2 / 8 == k && p.1.item.isSome)
    || engineBusy (vget s.cph (2 * k) {}) || engineBusy (vget s.cph (2 * k + 1) {})
    || engineBusy (vget s.hsh (2 * k) {}) || engineBusy (vget s.hsh (2 * k + 1) {}) || engineBusy (vget s.cvu k {})

/-- A pool engine holds a job. -/
def poolEngineBusy (e : PoolEngine) : Bool := e.running.isSome || !e.loaded.isEmpty

/-- A domain holds an item, job or chain (R784). -/
def domainBusy (s : State) (d : Nat) : Bool :=
  if d < 16 then crewBusy s (d / 2)
  else if d < 32 then poolEngineBusy (vget s.bne.engines (d - 16) {})
  else if d < 40 then poolEngineBusy (vget s.lte.engines (d - 32) {})
  else false

/-- DOMAIN_POWER_DOWN (R784). A crew's program cache loses its lines with its power (log 98). -/
def execDomainPowerDown (d : Nat) (s : State) : Host.Outcome State Fault Refusal :=
  .next <| if s.pwr.goingDown.contains d ∧ domainBusy s d = false then
    { s with
      pcache := if d < 16 ∧ d % 2 = 0 then vset s.pcache (d / 2) {} else s.pcache
      pwr := { s.pwr with
        domains := s.pwr.domains.filter (· != d)
        goingDown := s.pwr.goingDown.filter (· != d) } }
  else s

/-- DOMAIN_POWER_UP (R784): the domain comes online. -/
def execDomainPowerUp (d : Nat) (s : State) : Host.Outcome State Fault Refusal :=
  .next (fillPins { s with pwr := { s.pwr with goingUp := s.pwr.goingUp.filter (· != d) } })

/-- POWER_CAP_EXCEEDED (R785). -/
def execPowerCapExceeded (deciwatts : Nat) (s : State) : Host.Outcome State Fault Refusal :=
  .next <|
    let s := { s with pwr := { s.pwr with inputDw := min 65535 deciwatts } }
    if blockEn s 18 0 = true ∧ capDw s.variant s.pwr.effective < deciwatts ∧ s.pwr.limiting = false then
      { s with pwr := { s.pwr with limiting := true, limitEvents := satInc 0xFFFFFFFF s.pwr.limitEvents } }
    else s

/-- POWER_CAP_RELEASE (R785): assignment resumes below 97% of the cap. -/
def execPowerCapRelease (deciwatts : Nat) (s : State) : Host.Outcome State Fault Refusal :=
  .next <|
    let s := { s with pwr := { s.pwr with inputDw := min 65535 deciwatts } }
    if deciwatts * 100 < 97 * capDw s.variant s.pwr.effective then { s with pwr := { s.pwr with limiting := false } }
    else s

end Sys2Proof.Machine
end

