-- ==== Sys2Proof/Machine/SymJobs.lean ====
section
/-! DEFINITION. Cipher, hash and check-value jobs (chapter 10): engine choice, start, outputs, yields, faults and recovery,
invocation counters (R387 to R392, R455), and the commands of this family. -/

namespace Sys2Proof.Machine

/-! ### Engines by kind -/

/-- Engines of a crew, by kind (R41). -/
def crewEngines : SymKind → Nat → List Nat
  | .check, k => [k]
  | _, k => [2 * k, 2 * k + 1]

/-- Crew of an engine. -/
def engineCrew : SymKind → Nat → Nat
  | .check, e => e
  | _, e => e / 2

/-- The engine takes new jobs: in service, enabled and powered (R445, R474, R784). -/
def engineUp (s : State) (k : SymKind) (e : Nat) : Bool :=
  (engineOf s k e).online && blockEn s (kindBlock k) e && clusterOn s (engineCrew k e)

/-- Where a new job goes. -/
inductive Choice where
  | engine (e : Nat)
  | stall
  | offline
deriving DecidableEq, Repr

/-- The online engine with fewer jobs, the lower number first (R445); a stall while each one that could take it holds 32
jobs or is recovering. -/
def chooseEngine (s : State) (k : SymKind) (crew : Nat) : Choice :=
  let up := (crewEngines k crew).filter (engineUp s k)
  if up.isEmpty then .offline
  else
    let room := up.filter fun e => !(engineOf s k e).recovering && decide ((engineOf s k e).jobs.length < 32)
    match room with
    | [] => .stall
    | e :: rest => .engine (rest.foldl (fun b f =>
        if (engineOf s k f).jobs.length < (engineOf s k b).jobs.length then f else b) e)

/-- Queue a job on an engine. -/
def pushJob (s : State) (k : SymKind) (e : Nat) (j : SymJob) : State :=
  let x := engineOf s k e
  setEngine s k e { x with queue := x.queue ++ [{ j with since := now s }] }

/-! ### Completion -/

/-- Change the items of a chain, wherever it is. -/
def mapChain (s : State) (serial : Nat) (f : Item → Item) : State :=
  let g := fun x : Item => if x.serial = serial then f x else x
  { s with
    cores := s.cores.map fun k => { k with item := k.item.map g }
    dsp := { s.dsp with
      work := s.dsp.work.map fun w => if w.carry.isSome then { w with item := g w.item } else w
      parked := s.dsp.parked.map fun w => { w with item := g w.item } } }

/-- A ticket completes. -/
def completeTicket (x : Item) (num st : Nat) : Item :=
  { x with tickets := x.tickets.map fun t => if t.num = num then { t with done := some st } else t }

/-- The key instruction that waited for a job may complete; a failing status leaves it without effect. -/
def releasePendK (num st : Nat) (p : PendK) : PendK :=
  if p.wait = .job num then
    if st = 0 then { p with wait := .ready }
    else { p with wait := .ready, status := st, handle := none, ldm := [], out := [] }
  else p

/-- A symmetric job delivers its status: to its ticket, to the flag of `MACV` (R238), or to its key instruction (R446). A
scrubbed job delivers nothing (R461). -/
def finishSym (s : State) (j : SymJob) (st : Nat) (flag : Bool := false) : State :=
  if j.scrub then s
  else match j.op with
    | .macv _ =>
      let k := s.core j.core
      let f := fun p : PendG =>
        if p.wait = .job j.num then { p with wait := .ready, value := if flag then 1 else 0, status := st } else p
      s.setCore j.core { k with pendG := k.pendG.map f }
    | .keyInstr _ _ _ _ =>
      let k := s.core j.core
      s.setCore j.core { k with pendK := k.pendK.map (releasePendK j.num st) }
    | _ => mapChain (countStatus s (some j.inst) st) j.serial fun x => completeTicket x j.num st

/-! ### Invocation counters -/

/-- What a job that needs a counter value meets at its start. -/
inductive CtrDraw where
  | wait
  | fail (st : Nat)
  | value (v : Nat)
deriving DecidableEq, Repr

/-- Commit the reservation with base `b` (R388, R390). -/
def requestReservation (s : State) (n : KeyName) (b : Nat) : State :=
  let s := modCounter s n fun c => { c with base := b }
  (submitCommit s [.reserve n b]).2

/-- A reservation is needed: commit it once; spent beyond 2^40 (R389), refused while the store is read-only (R391). -/
def needReservation (s : State) (n : KeyName) (b : Nat) (asked : Bool) : CtrDraw × State :=
  if 2 ^ 40 ≤ b then (.fail St.keySpent, s)
  else if asked then (.wait, s)
  else if s.ksc.readOnly then (.fail St.storeReadonly, s)
  else if blockEn s 4 0 = false then (.wait, s)
  else (.wait, requestReservation s n b)

/-- Draw a counter value for a job under a handle (R236, R377, R387 to R391, R455, R816): a handle of an older snapshot draws
on the live counter of a key whose delete is visible, and a key whose creating commit is not yet visible has none. -/
def drawCounter (s : State) (k : KeyRec) : CtrDraw × State :=
  let n := k.name
  let c := counterOf s n
  if n.idx = 0 then
    if 2 ^ 40 ≤ c.next then (.fail St.keySpent, s)
    else (.value c.next, modCounter s n fun c => { c with next := c.next + 1 })
  else if ctrLive s k = false then (.wait, s)
  else if c.fresh then needReservation s n (ctrBaseOf s k + 65536) (c.base != 0)
  else if c.next < c.limit then
    let s := modCounter s n fun c => { c with next := c.next + 1 }
    if c.limit - (c.next + 1) < 16384 ∧ c.base < c.limit ∧ c.base + 65536 < 2 ^ 40 ∧ s.ksc.readOnly = false ∧ blockEn s 4 0 = true then
      (.value c.next, requestReservation s n (c.base + 65536))
    else (.value c.next, s)
  else needReservation s n c.limit (decide (c.limit ≤ c.base))

/-! ### Start -/

/-- A job of another item is outstanding on bytes this job touches (R220). -/
def jobBlocked (s : State) (j : SymJob) : Bool :=
  (allSymJobs s).any fun i =>
    i.serial == j.serial && decide (i.num % 2 ^ 60 < j.num % 2 ^ 60) &&
      i.op.writes.any fun w => (j.op.reads ++ j.op.writes).any w.overlaps

/-- The job that an idle engine starts next: held jobs first, except in Paddle; a saved job resumes before any other new
one (R290, R291, R447, R456). -/
def nextJob (s : State) (e : SymEngine) : Option SymJob :=
  match (if s.pwr.effective = 2 then none else e.queue.find? (·.held)) with
  | some j => some j
  | none => if e.saved.isEmpty then e.queue.head? else none

/-- The job draws a counter value (R455). -/
def needsCtr (j : SymJob) : Bool :=
  match j.op with
  | .ciph b _ => (b.mode == 5 || b.mode == 6) && b.dir == 0
  | _ => false

/-- The job draws random fill (R239). -/
def needsRand (j : SymJob) : Bool :=
  match j.op with
  | .ciph b _ => b.mode == 11 && (b.aux / 16 == 1 || b.aux / 16 == 3 || b.aux / 16 == 4)
  | _ => false

/-- Replace a queued job. -/
def replaceJob (e : SymEngine) (j : SymJob) : SymEngine :=
  { e with queue := e.queue.map fun i => if i.num = j.num then j else i }

/-- The job leaves the queue and runs, its key in the engine's key register (R449). -/
def runJob (s : State) (k : SymKind) (n : Nat) (j : SymJob) : State :=
  let e := engineOf s k n
  setEngine s k n
    { e with queue := e.queue.filter (fun i => i.num != j.num), running := some { j with since := now s }, keyReg := j.key }

/-- Start the next job of an engine (R447, R449, R455). -/
def startNext (s : State) (k : SymKind) (n : Nat) : State :=
  let e := engineOf s k n
  if e.running.isSome || e.recovering || !e.online then s
  else match nextJob s e with
    | none => s
    | some j =>
      if jobBlocked s j then s
      else if needsCtr j then
        match j.key with
        | none => s
        | some key =>
          match drawCounter s key with
          | (.value v, s) => runJob s k n { j with ctr := some v }
          | (.fail st, s) => runJob s k n { j with status := st }
          | (.wait, s) =>
            if j.waited then s
            else
              let s := setEngine s k n (replaceJob (engineOf s k n) { j with waited := true })
              { s with ksc := { s.ksc with resWait := satInc 0xFFFFFFFF s.ksc.resWait } }
      else if needsRand j then
        match drbgDraw s (engineCrew k n) 16 with
        | some (b, s) => runJob s k n { j with rand := b }
        | none => s
      else runJob s k n j

/-- CIPHER_JOB_START (R447, R449, R455), for an engine of any kind. -/
def execCipherJobStart (k : SymKind) (e : Nat) (s : State) : Host.Outcome State Fault Refusal := .next (startNext s k e)

/-! ### Moves between siblings -/

/-- The other engine of the crew. -/
def siblingOf (e : Nat) : Nat := if e % 2 = 0 then e + 1 else e - 1

/-- Insert a job into a queue in issue order (R447). -/
def insertJob (j : SymJob) : List SymJob → List SymJob
  | [] => [j]
  | i :: l => if j.num % 2 ^ 60 < i.num % 2 ^ 60 then j :: i :: l else i :: insertJob j l

/-- Engine `n`, in service, takes the jobs queued on a sibling that recovers or is offline: the earliest issued ones first,
while it holds fewer than 32, and each at its place in issue order (R447, R459; log 102). -/
def takeJobs (s : State) (k : SymKind) (n : Nat) : State :=
  let f := engineOf s k n
  let e := engineOf s k (siblingOf n)
  if k = .check ∨ engineUp s k n = false ∨ f.recovering = true ∨ (e.online = true ∧ e.recovering = false) then s
  else
    let go := e.queue.take (32 - f.jobs.length)
    if go.isEmpty then s
    else setEngine (setEngine s k (siblingOf n) { e with queue := e.queue.drop go.length }) k n
      { f with queue := go.foldl (fun q j => insertJob j q) f.queue }

/-! ### Completion, yield, resume -/

/-- Outcome of the running job of an engine: a yielded job's result stands in its saved state; any other takes the key of the
key register (R449, R456). -/
def runOut (s : State) (e : SymEngine) (j : SymJob) : Nat × Bool × List (BufRef × List Byte) :=
  if j.scrub = true ∨ j.status ≠ 0 then (j.status, false, [])
  else match j.out, (s.core j.core).item with
    | some r, _ => r
    | none, some x => jobOut s x { j with key := e.keyReg }
    | none, none => (j.status, false, [])

/-- A `KUNWRAP` job whose integrity check fails. -/
def unwrapFails (s : State) (j : SymJob) : Bool :=
  !j.scrub && (s.core j.core).pendK.any fun p => p.wait == .job j.num && p.status == St.authFail

/-- The running job of an engine completes with its outputs (R452, R453); its key register is cleared (R449), and jobs that
wait for this queue from the sibling take its place (R459). -/
def completeSym (s : State) (k : SymKind) (n : Nat) : State :=
  let e := engineOf s k n
  match e.running with
  | none => s
  | some j =>
    let r := runOut s e j
    let bad := r.1 == St.authFail || r.1 == St.pinFormat || unwrapFails s j
    let s := setEngine s k n
      { e with
        running := none
        keyReg := none
        ops := (e.ops + if j.status = 0 then jobOps j else 0) % 2 ^ 64
        checkFail := if bad then satInc 0xFFFFFFFF e.checkFail else e.checkFail }
    takeJobs (finishSym (writeOuts s j.core (outsFrom (reached j j.blocks) r.2.2)) j r.1 r.2.1) k n

/-- CIPHER_JOB_COMPLETE (R450). -/
def execCipherJobComplete (e : Nat) (s : State) : Host.Outcome State Fault Refusal := .next (completeSym s .cipher e)

/-- HASH_JOB_COMPLETE (R463). -/
def execHashJobComplete (e : Nat) (s : State) : Host.Outcome State Fault Refusal := .next (completeSym s .hash e)

/-- CVUPD_JOB_COMPLETE (R472): the context's register takes the source in. -/
def execCvupdJobComplete (u : Nat) (s : State) : Host.Outcome State Fault Refusal :=
  .next <| match (vget s.cvu u {}).running with
  | none => s
  | some j => match j.op, (s.core j.core).item with
    | .cvupd n src, some x =>
      if j.scrub then completeSym s .check u
      else
        let i := cvIndex j.core n
        let c := vget s.cvctx i {}
        let s := { s with cvctx := vset s.cvctx i { c with reg := crcBytes c c.reg (readRef s j.core x src) } }
        completeSym s .check u
    | _, _ => completeSym s .check u

/-- Jobs that yield only at their end (R457). -/
def noYield (j : SymJob) : Bool :=
  match j.op with
  | .ciph b _ | .macv b => decide (9 ≤ b.mode ∧ b.mode ≤ 11)
  | _ => false

/-- The multiple of the yield boundary, counted from its start or last resumption, that a running job has come to within the
tick that ended now (R456): none otherwise, in Paddle (Table 6.1), or once every block operation is done. -/
def yieldPoint (s : State) (j : SymJob) : Option Nat :=
  (yieldBoundary s.pwr.effective).bind fun b =>
    let q := j.base + b * ((jobAt s j - j.base) / b)
    if j.base < q ∧ j.blocks ≤ q ∧ jobBy j (now s - 1) < q ∧ q < jobOps j then some q else none

/-- ENGINE_JOB_YIELD (R290, R456, R457): a held job waits and the running one, not held, is at a yield boundary. -/
def execEngineJobYield (k : SymKind) (e : Nat) (s : State) : Host.Outcome State Fault Refusal :=
  .next <|
    let x := engineOf s k e
    match x.running with
    | none => s
    | some j =>
      match yieldPoint s j with
      | none => s
      | some q =>
        if k ≠ .check ∧ j.held = false ∧ noYield j = false ∧ x.queue.any (·.held) = true then
          let (s, j) := advanceJob s { j with key := x.keyReg } q
          setEngine s k e { x with running := none, keyReg := none, saved := x.saved ++ [j], yields := satInc 65535 x.yields }
        else s

/-- ENGINE_JOB_RESUME (R456): every waiting held job has completed; the key port loads the key again. -/
def execEngineJobResume (k : SymKind) (e : Nat) (s : State) : Host.Outcome State Fault Refusal :=
  .next <|
    let x := engineOf s k e
    match x.running, x.saved with
    | none, j :: rest =>
      if x.recovering = false ∧ x.online = true ∧ (s.pwr.effective = 2 ∨ x.queue.any (·.held) = false) then
        setEngine s k e { x with running := some { j with since := now s, base := j.blocks }, keyReg := j.key, saved := rest }
      else s
    | _, _ => s

/-! ### Faults and recovery -/

/-- An engine's jobs that do not run complete `ENGINE_ABORTED`. -/
def endJobs (s : State) (k : SymKind) (n : Nat) : State :=
  let e := engineOf s k n
  (e.saved ++ e.queue).foldl (fun s j => finishSym s j St.engineAborted) (setEngine s k n { e with queue := [], saved := [] })

/-- Queued jobs move to the sibling engine, up to its 32; the rest follow as it completes jobs. With both offline every job of
the kind completes `ENGINE_ABORTED` (R447, R459, R460). -/
def moveJobs (s : State) (k : SymKind) (n : Nat) : State :=
  let e := engineOf s k n
  match k with
  | .check => if e.online then s else endJobs s k n
  | _ =>
    if engineUp s k (siblingOf n) then takeJobs s k (siblingOf n)
    else if e.online then s
    else
      let s := endJobs s k n
      if (engineOf s k (siblingOf n)).online then s else endJobs s k (siblingOf n)

/-- The engine goes offline until the next start (R459); a job saved on it cannot resume, and completes `ENGINE_ABORTED` (log
102). -/
def engineOffline (s : State) (k : SymKind) (n : Nat) : State :=
  let e := engineOf s k n
  let s := e.saved.foldl (fun s j => finishSym s j St.engineAborted)
    (setEngine s k n { e with online := false, recovering := false, katFail := true, saved := [] })
  moveJobs (logOpen s (kindBlock k) 2 [n]) k n

/-- Zero the part of its destination that a faulting streaming job has written (R458). -/
def zeroReached (s : State) (j : SymJob) : State :=
  match j.op with
  | .ciph b _ => if streaming j && !j.scrub && j.status == 0 then writeRef s j.core b.dst (zeros (reached j (jobAt s j))) else s
  | _ => s

/-- A fault ends the running job (R458): it completes `ENGINE_ABORTED`, and is counted and recorded. -/
def faultJob (s : State) (k : SymKind) (n : Nat) (j : SymJob) : State :=
  let x := engineOf s k n
  let s := setEngine s k n { x with running := none, keyReg := none, faults := satInc 65535 x.faults }
  let s := logOpen (setBit s (winBase (kindBlock k) n + 8) 4) (kindBlock k) 1 [n]
  finishSym (zeroReached s j) j St.engineAborted

/-- ENGINE_FAULT_DETECTED (R458, R459): the engine recovers after it; a fault while it recovers takes it offline. -/
def execEngineFaultDetected (k : SymKind) (e : Nat) (s : State) : Host.Outcome State Fault Refusal :=
  .next <|
    let x := engineOf s k e
    let t := match x.running with
      | some j => faultJob s k e j
      | none => s
    if x.recovering then engineOffline t k e
    else if x.running.isSome then moveJobs (setEngine t k e { engineOf t k e with recovering := true }) k e
    else s

/-- ENGINE_RECOVERY_DONE (R459): the tests run once no job does. -/
def execEngineRecoveryDone (k : SymKind) (e : Nat) (pass : Bool) (s : State) : Host.Outcome State Fault Refusal :=
  .next <|
    let x := engineOf s k e
    if x.recovering = false ∨ x.running.isSome = true then s
    else if pass then setEngine s k e { x with recovering := false }
    else engineOffline s k e

/-- A write of 1 to `kat_run` (Table 10.5): the engine is treated as recovering. -/
def katRun (s : State) (k : SymKind) (e : Nat) : State :=
  let x := engineOf s k e
  if x.online then moveJobs (setEngine s k e { x with recovering := true }) k e else s

/-- CPH_KAT_RUN (Table 10.5). -/
def execCphKatRun (k : SymKind) (e : Nat) (s : State) : Host.Outcome State Fault Refusal := .next (katRun s k e)

/-- A ticket whose issue failed completes with the status decided at issue. -/
def failTicket (s : State) (ticket : Nat) : State :=
  match (liveChains s).find? fun x => x.tickets.any fun t => t.num == ticket && t.done.isNone && t.fail.isSome with
  | none => s
  | some x =>
    let st := ((x.tickets.find? fun t => t.num == ticket).bind (·.fail)).getD 0
    mapChain (countStatus s (some x.inst) st) x.serial fun x => completeTicket x ticket st

/-- ISSUE_CHECK_FAIL_COMPLETE (R223): the ticket of a symmetric job that failed an issue check completes. -/
def execIssueCheckFailComplete (ticket : Nat) (s : State) : Host.Outcome State Fault Refusal :=
  .next <| if ticket / 2 ^ 60 ≤ 3 then failTicket s ticket else s

end Sys2Proof.Machine
end

