-- ==== Sys2Proof/Machine/Cache.lean ====
section
/-! DEFINITION. The key cache (R326, R380 to R386) and draws from the system DRBG. The banks are one pool here, since the
spec gives no rule that chooses one (log 25). -/

namespace Sys2Proof.Machine

/-- Keys that live handles name (R27). -/
def handleNames (s : State) : List KeyName :=
  let ofCtx := fun x : Ctx => x.k.toList.filterMap fun k => k.map (·.name)
  s.cores.toList.flatMap (fun k => ofCtx k.ctx ++ k.pendK.filterMap fun p => p.handle.map (·.name))
    ++ (s.dsp.work ++ s.dsp.parked).flatMap (fun w => match w.carry with | some c => ofCtx c.ctx | none => [])

/-- Keys that a symmetric job reads: its own, and the second one of a translation or a wrap. -/
def SymJob.keys (j : SymJob) : List KeyRec :=
  j.key.toList ++ match j.op with
    | .ciph _ (some k) | .keyInstr _ (some k) _ _ => [k]
    | _ => []

/-- Keys that issued jobs still read, and secrets waiting for their handle (R384). -/
def jobNames (s : State) : List KeyName :=
  (allSymJobs s).flatMap (fun j => j.keys.map (·.name))
    ++ (s.bne.queue ++ s.lte.queue).filterMap (fun j => j.key.map (·.name))
    ++ (s.bne.engines.toList ++ s.lte.engines.toList).flatMap (fun e =>
        (e.running.toList ++ e.loaded).filterMap fun j => j.key.map (·.name))
    ++ (s.bne.done ++ s.lte.done).filterMap fun d => d.handle.map (·.2.name)

/-- A pinned key (R384). -/
def pinned (s : State) (n : KeyName) : Bool := (handleNames s).contains n || (jobNames s).contains n

/-- Entries that an instance holds. -/
def held (l : List Cached) (i : Nat) : Nat := (l.filter fun x => x.inst == i).foldl (fun n x => n + x.entries) 0

/-- Quota of an instance. -/
def kcQuota (c : Cfg) (i : Nat) : Nat := ((c.share i).map (·.kcQuota)).getD 0

/-- Entries of the unreserved remainder in use: holdings beyond their quotas (R326). -/
def remainderUsed (c : Cfg) (l : List Cached) : Nat :=
  ((l.map (·.inst)).eraseDups.map fun i => held l i - kcQuota c i).foldl (· + ·) 0

/-- Entries that an instance may take without an eviction (R385): what is left of its quota, and of the remainder. Where quotas
granted meanwhile leave a remainder smaller than what is held of it, so many fewer. -/
def freeFor (v : Variant) (c : Cfg) (l : List Cached) (i : Nat) : Nat :=
  (kcQuota c i - held l i) + (v.cacheEntries - c.sumInst (·.kcQuota)) - remainderUsed c l

/-- The least recently used key that R326 and R385 let an instance evict: of another instance, one whose eviction leaves that
instance its quota. -/
def victim (s : State) (c : Cfg) (l : List Cached) (i : Nat) : Option Cached :=
  let under := decide (held l i < kcQuota c i)
  let may := l.filter fun x =>
    !pinned s x.name && (x.inst == i || (under && decide (kcQuota c x.inst + x.entries ≤ held l x.inst)))
  may.foldl (fun b x => match b with
    | some y => if x.used < y.used then some x else some y
    | none => some x) none

/-- Evict until `n` entries are free; none where no entry can be taken (R386). -/
def makeRoom (s : State) (c : Cfg) (i n : Nat) : Nat → List Cached → Option (List Cached)
  | 0, l => if n ≤ freeFor s.variant c l i then some l else none
  | fuel + 1, l =>
    if n ≤ freeFor s.variant c l i then some l
    else match victim s c l i with
      | some x => makeRoom s c i n fuel (l.filter fun y => y.name != x.name)
      | none => none

/-- One entry under a fresh mask of the system DRBG (R380). -/
def maskEntry (s : State) (b : List Byte) : Option (CacheEntry × State) :=
  (sysDraw s .ksc 64).map fun r => ({ value := xorBytes b r.1, mask := r.1, masked := now s }, r.2)

/-- Entries of material, 64 bytes each; none while the system DRBG cannot serve (R382, Table 13.3). -/
def maskAll (s : State) : List (List Byte) → Option (List CacheEntry × State)
  | [] => some ([], s)
  | b :: l => (maskEntry s b).bind fun e => (maskAll e.2 l).map fun r => (e.1 :: r.1, r.2)

/-- The 64-byte pieces of a key's material. -/
def entryBytes (k : KeyRec) : List (List Byte) := (List.range (entriesOf k)).map fun i => slice k.material (64 * i) 64

/-- A key that resides in the cache with its material, not only its room. -/
def resident (s : State) (n : KeyName) : Bool := s.ksc.cache.any fun x => x.name == n && x.slots.all fun e => !e.mask.isEmpty

/-- Entries taken for a key whose record is still to be fetched. -/
def emptyEntries (s : State) (k : KeyRec) : List CacheEntry :=
  List.replicate (entriesOf k) { value := [], mask := [], masked := now s }

/-- Room in the cache for a key of an instance, or the key found there (R383, R385); none under R386. -/
def takeRoom (s : State) (i : Nat) (k : KeyRec) : Option State :=
  let clock := s.ksc.useClock + 1
  if s.ksc.cache.any (fun x => x.name == k.name) then
    some { s with ksc := { s.ksc with
      useClock := clock
      cache := s.ksc.cache.map fun x => if x.name = k.name then { x with used := clock } else x } }
  else
    match makeRoom s (cfgV s) i (entriesOf k) s.ksc.cache.length s.ksc.cache with
    | some l =>
      let e : Cached := { name := k.name, inst := i, used := clock, slots := emptyEntries s k }
      some { s with ksc := { s.ksc with useClock := clock, cache := l ++ [e] } }
    | none => none

/-- The entries of a key receive its material under fresh masks (R380, R383). -/
def fillEntries (s : State) (k : KeyRec) : Option State :=
  (maskAll s (entryBytes k)).map fun r =>
    { r.2 with ksc := { r.2.ksc with cache := r.2.ksc.cache.map fun x => if x.name = k.name then { x with slots := r.1 } else x } }

/-- Outcome of placing a key. -/
inductive Place where
  | full
  | wait
  | placed (s : State)

/-- Place a key in the cache for an instance, or find it there (R380, R383, R385, R386). -/
def placeKey (s : State) (i : Nat) (k : KeyRec) : Place :=
  match takeRoom s i k with
  | none => .full
  | some t =>
    if resident t k.name then .placed t
    else match fillEntries t k with
      | some t => .placed t
      | none => .wait

/-- The key store serves key instructions and commits (R404). -/
def kscOn (s : State) : Bool := blockEn s 4 0

/-- Another core's held item has a key instruction to serve, and core `c` has none (R290); not in Paddle (R291). -/
def kscYields (s : State) (c : CoreId) (p : PendK → Bool) : Bool :=
  let held := fun k : Core => k.item.any (·.held)
  s.pwr.effective != 2 && !held (s.core c) && s.cores.toList.any fun k => held k && k.pendK.any p

/-- Remove a key from the cache. -/
def uncache (s : State) (n : KeyName) : State :=
  { s with ksc := { s.ksc with cache := s.ksc.cache.filter fun x => x.name != n } }

/-- A new key that is not persisted (R230, R364): its identity is the next unused one. -/
def newUid (s : State) : Nat × State := (s.ksc.nextUid, { s with ksc := { s.ksc with nextUid := s.ksc.nextUid + 1 } })

end Sys2Proof.Machine
end

