-- ==== Sys2Proof/Machine/BneOps.lean ====
section
/-! DEFINITION. Operations of the big-number engines (chapter 11): forms, operands, screening (R475, R479 to R481, R484,
Table 5.8), nominal times (R482), results (R487, R489). -/

namespace Sys2Proof.Machine

/-! ### Arithmetic -/

/-- b^e mod m, over the bits of e. -/
def powMod (m : Nat) : Nat → Nat → Nat → Nat
  | 0, _, _ => 1 % m
  | f + 1, b, e =>
    if e = 0 then 1 % m
    else
      let h := powMod m f (b * b % m) (e / 2)
      if e % 2 = 1 then b * h % m else h

/-- b^e mod m. -/
def modPow (m b e : Nat) : Nat := powMod m (bitLen e + 1) (b % m) e

/-- Extended Euclid: the gcd and the coefficient of the first number. -/
def egcd : Nat → Nat → Nat → Int → Int → Nat × Int
  | 0, r, _, t, _ => (r, t)
  | f + 1, r, q, t, u => if q = 0 then (r, t) else egcd f q (r % q) u (t - (r / q : Nat) * u)

/-- a⁻¹ mod m; none where gcd(a, m) ≠ 1. -/
def modInverse (a m : Nat) : Option Nat :=
  let r := egcd (2 * bitLen m + 2) a m 1 0
  if r.1 = 1 then some (r.2 % (m : Int)).toNat else none

/-- Square up to `n` times, looking for n − 1. -/
def mrSquares (c : Nat) : Nat → Nat → Bool
  | 0, _ => false
  | f + 1, x => x == c - 1 || mrSquares c f (x * x % c)

/-- Odd part and power of two of a number. -/
def oddPart : Nat → Nat → Nat × Nat
  | 0, n => (n, 0)
  | f + 1, n => if n % 2 = 1 ∨ n = 0 then (n, 0) else ((oddPart f (n / 2)).1, (oddPart f (n / 2)).2 + 1)

/-- One Miller–Rabin round: the candidate passes for base `a`. -/
def mrRound (c a : Nat) : Bool :=
  let o := oddPart (bitLen c) (c - 1)
  let x := modPow c a o.1
  x == 1 || mrSquares c o.2 x

/-- Bytes that a Miller–Rabin base is drawn from. -/
def baseLen (c : Nat) : Nat := bitLen c / 8 + 9

/-- t Miller–Rabin rounds, with bases from drawn bytes (R485). -/
def probablyPrime (c t : Nat) (r : List Byte) : Bool :=
  if c < 4 then c == 2 || c == 3
  else if c % 2 = 0 then false
  else
    (List.range t).all fun i => mrRound c (2 + leNat (slice r (i * baseLen c) (baseLen c)) % (c - 3))

/-! ### Operations (Table 11.1) -/

/-- The operations; `c` = 0, 1, 2 selects P-256, P-384, P-521. -/
inductive BneKind where
  | modMul | modExp | modInv | prime | rsaPriv | rsaPub
  | ecSign (c : Nat) | ecVerify (c : Nat) | ecdh (c : Nat) | ecPoint (c : Nat)
  | x25519 | edSign | edVerify
deriving DecidableEq, Repr

/-- Operation of an `op` code. -/
def bneKind (op : Nat) : Option BneKind :=
  match op with
  | 1 => some .modMul | 2 => some .modExp | 3 => some .modInv | 4 => some .prime
  | 0x10 => some .rsaPriv | 0x11 => some .rsaPub
  | 0x20 | 0x21 | 0x22 => some (.ecSign (op - 0x20)) | 0x24 | 0x25 | 0x26 => some (.ecVerify (op - 0x24))
  | 0x28 | 0x29 | 0x2A => some (.ecdh (op - 0x28)) | 0x2C | 0x2D | 0x2E => some (.ecPoint (op - 0x2C))
  | 0x30 => some .x25519 | 0x34 => some .edSign | 0x35 => some .edVerify | _ => none

/-- A keyed form exists. -/
def BneKind.keyed : BneKind → Bool
  | .modMul | .modExp | .modInv | .prime | .ecPoint _ => false
  | _ => true

/-- A public form exists. -/
def BneKind.pub : BneKind → Bool
  | .rsaPriv | .ecSign _ | .edSign => false
  | _ => true

/-- Usage bits of the keyed form; one of them suffices. -/
def BneKind.usage : BneKind → List Nat
  | .rsaPriv => [uSign, uDecrypt]
  | .rsaPub => [uVerify, uEncrypt]
  | .ecSign _ | .edSign => [uSign]
  | .ecVerify _ | .edVerify => [uVerify]
  | _ => [uDerive]

/-- The key's algorithm suits the operation. -/
def BneKind.suits (k : BneKind) (alg : Nat) : Bool :=
  match k with
  | .rsaPriv | .rsaPub => decide (0x18 ≤ alg ∧ alg ≤ 0x1A)
  | .ecSign c | .ecVerify c | .ecdh c | .ecPoint c => alg == 0x10 + c
  | .x25519 => alg == 0x13
  | .edSign | .edVerify => alg == 0x14
  | _ => false

/-- Slots that the operation takes. -/
def BneKind.slots : BneKind → Nat
  | .modMul | .modInv | .ecPoint _ => 4
  | .modExp | .prime | .rsaPub => 22
  | .rsaPriv => 24
  | .x25519 => 8
  | _ => 16

/-- Group order of a curve. PRESUMED: FIPS 186-5 (log 26). -/
def groupOrder (c : Nat) : Nat :=
  if c = 0 then 0xFFFFFFFF00000000FFFFFFFFFFFFFFFFBCE6FAADA7179E84F3B9CAC2FC632551
  else if c = 1 then
    0xFFFFFFFFFFFFFFFFFFFFFFFFFFFFFFFFFFFFFFFFFFFFFFFFC7634D81F4372DDF581A0DB248B0A77AECEC196ACCC52973
  else
    0x01FFFFFFFFFFFFFFFFFFFFFFFFFFFFFFFFFFFFFFFFFFFFFFFFFFFFFFFFFFFFFFFFFFFA51868783BF2F966B7FCC0148F709A5D03BB5C9B8899C47AEBB6FB71E91386409

/-- Group order of Ed25519. PRESUMED: RFC 8032, which the chapter cites (log 26). -/
def edOrder : Nat := 2 ^ 252 + 27742317777372353535851937790883648493

/-- Operand width w in bits (Table 11.1). -/
def BneKind.width (k : BneKind) (key : Option KeyRec) (ins : List (List Byte)) : Nat :=
  match k with
  | .modMul | .modExp | .modInv | .prime => 8 * (ins.getD 0 []).length
  | .rsaPriv | .rsaPub => match key with
    | some y => 8 * (publicLen y.attrs.alg - 8)
    | none => 8 * (ins.getD 0 []).length
  | .ecSign c | .ecVerify c | .ecdh c | .ecPoint c => if c = 0 then 256 else if c = 1 then 384 else 521
  | _ => 256

/-- Bytes that the operation writes to output 0. -/
def BneKind.outLen (k : BneKind) (key : Option KeyRec) (keyed : Bool) (ins : List (List Byte)) : Nat :=
  match k with
  | .modMul | .modExp | .modInv | .rsaPriv | .rsaPub => k.width key ins / 8
  | .prime => 1
  | .ecSign c => 2 * fieldLen c
  | .ecdh c => if keyed then 0 else 1 + 2 * fieldLen c
  | .x25519 => if keyed then 0 else 32
  | .edSign => 64
  | _ => 0

/-- RSA modulus of a key (R813). -/
def rsaN (k : KeyRec) : Nat := beNat ((publicPart k).take (publicLen k.attrs.alg - 8))

/-- RSA public exponent of a key (Table 8.3). -/
def rsaE (k : KeyRec) : Nat := leNat (k.material.drop (k.material.length - 8))

/-- value^d mod N by the two halves (R479): p, q, dp, dq and qinv stand in the material as `publicPart`
reads p and q (log 26). -/
def rsaPrivate (k : KeyRec) (v : Nat) : Nat :=
  let n := (k.material.length - 8) / 5
  let x := fun i => beNat (slice k.material (i * n) n)
  let m1 := modPow (x 0) v (x 2)
  let m2 := modPow (x 1) v (x 3)
  m2 + x 4 * (m1 + x 0 - m2 % x 0) % x 0 * x 1

/-- Field prime and constant d of Ed25519. PRESUMED: RFC 8032, which the chapter cites (log 26). -/
def edPrime : Nat := 2 ^ 255 - 19
def edD : Nat := 37095705934669439343138083508754565189542113879843219016388785533085940283555

/-- 32 bytes decode to a point under RFC 8032 (Table 11.5): y lies below the prime, and x² = (y² − 1) / (d·y² + 1) has a root of
the sign that the top bit gives. -/
def edPoint (b : List Byte) : Bool :=
  let n := leNat b
  let y := n % 2 ^ 255
  let y2 := y * y % edPrime
  let x2 := (y2 + edPrime - 1) * modPow edPrime (edD * y2 + 1) (edPrime - 2) % edPrime
  b.length == 32 && decide (y < edPrime) &&
    (if x2 = 0 then n < 2 ^ 255 else modPow edPrime x2 ((edPrime - 1) / 2) == 1)

/-- The keyed form takes a result spec in input 1 (R481). -/
def BneKind.derives : BneKind → Bool
  | .ecdh _ | .x25519 => true
  | _ => false

/-- Result spec (R481, R505) for a secret of `size` bits. -/
def parseSpec (b : List Byte) (size : Nat) : Option (KReg × Attrs) :=
  if b.length = 40 ∧ rsvdOk b 33 7 ∧ fieldAt b 32 1 < 16 then
    match parseAttrs b with
    | some a =>
      if a.alg = 6 ∧ a.size = size ∧ a.persist = false ∧ a.dual = false ∧
          (List.range 10).all (fun i => !bitOf a.usage i || [uDerive, uMacGen, uMacVerify, uEncrypt, uDecrypt].contains i) then
        some (Fin.ofNat 16 (fieldAt b 32 1), a)
      else none
    | none => none
  else none

/-! ### Operand checks (Table 5.8) -/

/-- A modulus below which the module refuses nothing. -/
def modulusOk (m : Nat) : Bool := decide (m % 2 = 1 ∧ 3 ≤ m)

/-- An operand of the modulus's length, non-zero and below it. -/
def residueOk (m : Nat) (len : Nat) (b : List Byte) (v : Nat) : Bool := decide (b.length = len ∧ 0 < v ∧ v < m)

/-- An uncompressed point: its length, and coordinates below the field prime. -/
def pointOk (c : Nat) (b : List Byte) : Bool :=
  let n := fieldLen c
  b.length == 1 + 2 * n && decide (beNat (slice b 1 n) < fieldPrime c ∧ beNat (slice b (1 + n) n) < fieldPrime c)

/-- r and s of an ECDSA signature. -/
def sigOkLen (c : Nat) (b : List Byte) : Bool :=
  let n := fieldLen c
  let r := beNat (b.take n)
  let s := beNat (b.drop n)
  decide (b.length = 2 * n ∧ 0 < r ∧ r < groupOrder c ∧ 0 < s ∧ s < groupOrder c)

/-- Every public operand passes Table 5.8 and R484's exponent rule. -/
def BneKind.operandsOk (k : BneKind) (key : Option KeyRec) (ins : List (List Byte)) : Bool :=
  let a := ins.getD 0 []
  let b := ins.getD 1 []
  let c := ins.getD 2 []
  let m := leNat a
  match k with
  | .modMul => modulusOk m && residueOk m a.length b (leNat b) && residueOk m a.length c (leNat c)
  | .modExp => modulusOk m && residueOk m a.length b (leNat b) && decide (1 ≤ c.length)
  | .modInv => modulusOk m && residueOk m a.length b (leNat b)
  | .prime => decide (1 ≤ a.length ∧ b.length = 1 ∧ 1 ≤ leNat b ∧ leNat b ≤ 64)
  | .rsaPriv => match key with
    | some y => residueOk (rsaN y) (publicLen y.attrs.alg - 8) a (beNat a) && beNat a != 1 && beNat a != rsaN y - 1
    | none => false
  | .rsaPub => match key with
    | some y => residueOk (rsaN y) (publicLen y.attrs.alg - 8) a (beNat a) && beNat a != 1 && beNat a != rsaN y - 1
        && decide (rsaE y < 2 ^ 64)
    | none =>
      let n := beNat a
      let e := beNat b
      modulusOk n && modulusOk e && decide (e < 2 ^ 64) && residueOk n a.length c (beNat c) && beNat c != 1
        && beNat c != n - 1
  | .ecSign _ => decide (20 ≤ a.length ∧ a.length ≤ 66)
  | .ecVerify x => decide (20 ≤ a.length ∧ a.length ≤ 66) && sigOkLen x b && (key.isSome || pointOk x c)
  | .ecdh x => if key.isSome then pointOk x a
      else decide (a.length = fieldLen x ∧ 0 < beNat a ∧ beNat a < groupOrder x) && pointOk x b
  | .ecPoint x => pointOk x a
  | .x25519 => a.length == 32 && (key.isSome || b.length == 32)
  | .edSign => decide (a.length ≤ 4096)
  | .edVerify => decide (a.length ≤ 4096) && b.length == 64 && (key.isSome || c.length == 32)

/-! ### Nominal times (Table 11.2) -/

/-- Cycles of one modular multiplication. -/
def mulCycles (w : Nat) : Nat := 2 * ceilDiv w 64 * ceilDiv w 256 + 4

/-- Cycles of an exponentiation with an exponent of `l` bits. -/
def expCycles (w l : Nat) : Nat := 300 + (l + ceilDiv l 5 + 16) * mulCycles w

/-- One of three values by curve or modulus size. -/
def pick3 (i a b c : Nat) : Nat := if i = 0 then a else if i = 1 then b else c

/-- N_op (R482): `l` is 8 × the exponent's length, or the rounded bit length of the public exponent, or t; `m` the message
length. -/
def BneKind.nominal (k : BneKind) (w l m : Nat) (b128 vas : Bool) : Nat :=
  let ed := 120000 + 80 * ceilDiv (m + 81) 128
  match k with
  | .modMul => 300 + mulCycles w
  | .modExp | .rsaPub => expCycles w l
  | .modInv => 300 + 4 * w * ceilDiv w 256
  | .prime => 300 + l * (w + ceilDiv w 5 + 16) * mulCycles w
  | .rsaPriv => let i := if w = 2048 then 0 else if w = 3072 then 1 else 2
    if b128 then pick3 i 395328 1274968 3079464 else pick3 i 375000 1230000 3000000
  | .ecSign c => (if b128 then pick3 c 71520 236880 615680 else pick3 c 60000 210000 560000)
      + (if vas then pick3 c 120000 420000 1180000 else 0)
  | .ecVerify c => pick3 c 120000 420000 1180000
  | .ecdh c => if b128 then pick3 c 71520 226880 600680 else pick3 c 60000 200000 545000
  | .ecPoint c => pick3 c 348 412 532
  | .x25519 => 35000
  | .edSign => (if b128 then 75520 else 64000) + 80 * (ceilDiv (m + 49) 128 + ceilDiv (m + 81) 128)
      + (if vas then ed else 0)
  | .edVerify => ed

/-- N_op of a call, at the settings given. -/
def bneNominal (k : BneKind) (key : Option KeyRec) (ins : List (List Byte)) (b128 vas : Bool) : Nat :=
  let l := match k with
    | .modExp => 8 * (ins.getD 2 []).length
    | .rsaPub => 8 * ceilDiv (bitLen (match key with | some y => rsaE y | none => beNat (ins.getD 1 []))) 8
    | .prime => leNat (ins.getD 1 [])
    | _ => 0
  k.nominal (k.width key ins) l (ins.getD 0 []).length b128 vas

/-! ### Results -/

/-- What a job delivers: a status, output 0, and the shared secret of a derivation. -/
structure PoolOut where
  status : Nat := 0
  out : List Byte := []
  secret : Option (List Byte) := none
deriving DecidableEq, Repr

/-- The operation has an end-of-operation invariant (R487). -/
def BneKind.hasInvariant (k : BneKind) (vas : Bool) : Bool :=
  match k with
  | .rsaPriv | .ecSign _ | .ecdh _ => true
  | .edSign => vas
  | _ => false

/-- Result of an operation on operands that passed screening (Table 11.1, R253, R254, R489). -/
def bneResult (k : BneKind) (key : Option KeyRec) (ins : List (List Byte)) (rand : List Byte) : PoolOut :=
  let a := ins.getD 0 []
  let b := ins.getD 1 []
  let c := ins.getD 2 []
  let n := a.length
  let m := leNat a
  let kb := match key with | some y => keyIn y | none => []
  let generic : PoolOut := { status := St.pkGeneric }
  let verdict := fun ok : Bool => ({ status := if ok then 0 else St.authFail } : PoolOut)
  match k with
  | .modMul => { out := leBytes n (leNat b * leNat c % m) }
  | .modExp => { out := leBytes n (modPow m (leNat b) (leNat c)) }
  | .modInv => match modInverse (leNat b) m with
    | some v => { out := leBytes n v }
    | none => generic
  | .prime => { out := [if probablyPrime m (leNat b) rand then 1 else 0] }
  | .rsaPriv => match key with
    | some y => { out := beBytes n (rsaPrivate y (beNat a)) }
    | none => generic
  | .rsaPub => match key with
    | some y => { out := beBytes n (modPow (rsaN y) (beNat a) (rsaE y)) }
    | none => { out := beBytes n (modPow (beNat a) (beNat c) (beNat b)) }
  | .ecSign x => { out := cryptoBytes .ecSign (kb ++ [a, rand]) (2 * fieldLen x) }
  | .ecVerify x =>
    let q := match key with | some y => publicPart y | none => c
    if onCurve x q then verdict (Config.cryptoOk .ecSign [leBytes 1 x, q, a, b]) else generic
  | .ecdh x =>
    if onCurve x (if key.isSome then a else b) then
      if key.isSome then { secret := some (cryptoBytes .ecPoint (kb ++ [a]) (fieldLen x)) }
      else { out := 4 :: cryptoBytes .ecPoint [leBytes 1 x, a, b] (2 * fieldLen x) }
    else generic
  | .ecPoint x => if onCurve x a then {} else generic
  | .x25519 =>
    let u := if key.isSome then cryptoBytes .x25519 (kb ++ [a]) 32 else cryptoBytes .x25519 [a, b] 32
    if allZero u then generic else if key.isSome then { secret := some u } else { out := u }
  | .edSign => { out := cryptoBytes .ed25519Sign (kb ++ [a]) 64 }
  | .edVerify =>
    let q := match key with | some y => publicPart y | none => c
    if edPoint q && edPoint (b.take 32) && decide (leNat (b.drop 32) < edOrder) then
      verdict (Config.cryptoOk .ed25519Sign [q, a, b])
    else generic

end Sys2Proof.Machine
end

