-- ==== Sys2Proof/Machine/LteOps.lean ====
section
/-! DEFINITION. Operations of the lattice engines (chapter 12): forms, operands (R502 to R505), cycles (Table 12.3),
results (R506 to R508), and the attestation statement (R438, R439). -/

namespace Sys2Proof.Machine

/-- The operations (Table 12.1); `s` = 0, 1, 2 selects the parameter set in ascending order. -/
inductive LteKind where
  | kemPublic (s : Nat) | encaps (s : Nat) | decaps (s : Nat)
  | dsaPublic (s : Nat) | signHedged (s : Nat) | signDet (s : Nat) | verify (s : Nat)
  | attest
deriving DecidableEq, Repr

/-- Operation of an `op` code: 0x0100 + 4f + s and 0x0200 + 4f + s. -/
def lteKind (op : Nat) : Option LteKind :=
  let s := op % 4
  if op = 0xF0 then some .attest
  else if s = 3 then none
  else match op / 4 with
    | 0x40 => some (.kemPublic s)
    | 0x41 => some (.encaps s)
    | 0x42 => some (.decaps s)
    | 0x80 => some (.dsaPublic s)
    | 0x81 => some (.signHedged s)
    | 0x82 => some (.signDet s)
    | 0x83 => some (.verify s)
    | _ => none

/-- A public form exists. -/
def LteKind.pub : LteKind → Bool
  | .encaps _ | .verify _ => true
  | _ => false

/-- Usage bit of the keyed form; none for the public-key operations and attestation (R503). -/
def LteKind.usage : LteKind → Option Nat
  | .encaps _ | .decaps _ => some uDerive
  | .signHedged _ | .signDet _ => some uSign
  | .verify _ => some uVerify
  | _ => none

/-- The key's algorithm is the parameter set of the operation (R502). -/
def LteKind.suits (k : LteKind) (alg : Nat) : Bool :=
  match k with
  | .kemPublic s | .encaps s | .decaps s => alg == 0x20 + s
  | .dsaPublic s | .signHedged s | .signDet s | .verify s => alg == 0x28 + s
  | .attest => true

/-- Algorithm of the operation's set. -/
def LteKind.alg : LteKind → Nat
  | .kemPublic s | .encaps s | .decaps s => 0x20 + s
  | .dsaPublic s | .signHedged s | .signDet s | .verify s => 0x28 + s
  | .attest => 0x28

/-- Ciphertext or signature length of a set (Table 12.2). -/
def LteKind.ctLen (k : LteKind) : Nat :=
  match k.alg with
  | 0x20 => 768 | 0x21 => 1088 | 0x22 => 1568 | 0x28 => 2420 | 0x29 => 3309 | _ => 4627

/-- Bytes that the operation writes to output 0 (R502). -/
def LteKind.outLen (k : LteKind) : Nat :=
  match k with
  | .kemPublic _ | .dsaPublic _ => publicLen k.alg
  | .encaps _ | .signHedged _ | .signDet _ => k.ctLen
  | .decaps _ | .verify _ => 0
  | .attest => 2740

/-- The operation draws randomness (Table 12.1). -/
def LteKind.draws : LteKind → Bool
  | .encaps _ | .signHedged _ | .attest => true
  | _ => false

/-- A signing job: rejection iterations fix its time (R512, R513). -/
def LteKind.signs : LteKind → Bool
  | .signHedged _ | .signDet _ | .attest => true
  | _ => false

/-- Input that holds the result spec, where the form takes one (Table 12.1). -/
def LteKind.specIn (k : LteKind) (keyed : Bool) : Option Nat :=
  match k with
  | .encaps _ => some (if keyed then 0 else 1)
  | .decaps _ => some 1
  | _ => none

/-- Message input (R504): context length, context, message of at most 65,536 bytes. -/
def messageOk (b : List Byte) : Bool :=
  match b with
  | [] => false
  | c :: rest => decide (c.toNat ≤ rest.length ∧ rest.length - c.toNat ≤ 65536)

/-- Every public operand passes Table 5.8 and R504. -/
def LteKind.operandsOk (k : LteKind) (keyed : Bool) (ins : List (List Byte)) : Bool :=
  let a := ins.getD 0 []
  let b := ins.getD 1 []
  let c := ins.getD 2 []
  match k with
  | .kemPublic _ | .dsaPublic _ => true
  | .encaps _ => keyed || (a.length == publicLen k.alg && kemCoeffsOk (a.take (a.length - 32)))
  | .decaps _ => a.length == k.ctLen
  | .signHedged _ | .signDet _ => messageOk a
  | .verify _ => messageOk a && b.length == k.ctLen && (keyed || c.length == publicLen k.alg)
  | .attest => decide (a.length ≤ 64)

/-! ### Timing (Table 12.3) -/

/-- Expansion cycles X of an algorithm; 400 for the attested key of any other algorithm. -/
def expansionCycles (alg : Nat) : Nat :=
  match alg with
  | 0x20 => 2600 | 0x21 => 3800 | 0x22 => 5200 | 0x28 => 4000 | 0x29 => 6000 | 0x2A => 9000 | _ => 400

/-- Extra message hashing H for a message and context of `n` bytes together. -/
def hashExtra (n : Nat) : Nat := 24 * (ceilDiv (n + 66) 136 - 1)

/-- Verify time of a set. -/
def verifyCycles (s h : Nat) : Nat := pick3 s 10000 15000 24000 + h

/-- Cycles of a job (Table 12.3): `iters` rejection iterations, `mc` bytes of message and context, `attested` the
algorithm of the attested key, and the miss and verify-after-sign additions. -/
def LteKind.cycles (k : LteKind) (keyed hit vas : Bool) (iters mc attested : Nat) : Nat :=
  let h := hashExtra mc
  let x := if keyed && !hit then expansionCycles k.alg else 0
  match k with
  | .kemPublic _ | .dsaPublic _ => if hit then 500 else expansionCycles k.alg
  | .encaps s => pick3 s 3000 4400 6000 + x
  | .decaps s => pick3 s 4200 6000 8000 + x
  | .signHedged s | .signDet s =>
    pick3 s 3600 5000 7000 + iters * pick3 s 4800 7600 12400 + h + x + (if vas then verifyCycles s h else 0)
  | .verify s => verifyCycles s h
  | .attest => 4800 + expansionCycles attested + 4800 * iters + (if hit then 0 else 4000)
      + (if vas then verifyCycles 0 h else 0)

/-! ### Attestation (R438, R439) -/

/-- Digest of the public part, or the commitment of a secret key (R439). -/
def keyCommitment (k : KeyRec) : List Byte :=
  if symmetricAlg k.attrs.alg then
    kmac256 k.material (leBytes 8 (keyIdOf k.name) ++ leBytes 8 k.csnCreated) 32 (ascii "WX-COMMIT")
  else sha3_256 (publicPart k)

/-- Code of the servo state (Table 2.3). -/
def servoCode : Servo → Nat
  | .acquiring => 0 | .fix => 1 | .deadReckoning => 2 | .adrift => 3

/-- Statement body (Table 9.15). -/
def attestBody (s : State) (k : KeyRec) (challenge : List Byte) : List Byte :=
  let backup := ((alGet (cfgV s).settings k.name.dom).getD {}).backupAllowed
  leBytes 4 0x54415857 ++ leBytes 2 1 ++ zeros 2
    ++ ownIdentity s
    ++ leBytes 8 (keyIdOf k.name) ++ attrBytes k.attrs
    ++ leBytes 4 (b2n k.attrs.generated + 2 * b2n k.attrs.exportable + 4 * b2n k.attrs.dual + 8 * b2n backup
        + 16 * b2n k.restored)
    ++ zeros 4 ++ keyCommitment k ++ leBytes 8 k.csnCreated ++ leBytes 8 s.ksc.v ++ leBytes 8 s.mer.t
    ++ leBytes 4 s.mer.unc ++ leBytes 1 (servoCode s.mer.state) ++ leBytes 1 challenge.length ++ zeros 2
    ++ slice challenge 0 64 ++ leBytes 2 s.prl.unitId ++ zeros 102

/-- The statement: the body and its signature under the attestation key with context "WX-ATTEST". -/
def attestation (s : State) (k : KeyRec) (challenge rand : List Byte) : List Byte :=
  let body := attestBody s k challenge
  body ++ mldsaSigned 0x28 (ownKeys s).attest (ascii "WX-ATTEST") body rand 2420

/-! ### Results -/

/-- The expansion of a key's seed matches the digest that its record stores (R508). -/
def expansionOk (k : KeyRec) : Bool :=
  k.material.drop (secretLen k.attrs.alg 0) == sha3_256 (publicPart k)

/-- Result of an operation on operands that passed screening (Table 12.1, R254, R505 to R507). -/
def lteResult (s : State) (k : LteKind) (key : Option KeyRec) (ins : List (List Byte)) (rand : List Byte) : PoolOut :=
  let a := ins.getD 0 []
  let b := ins.getD 1 []
  let kb := match key with | some y => keyIn y | none => []
  let own := match key with | some y => publicPart y | none => []
  match k with
  | .kemPublic _ | .dsaPublic _ => { out := own }
  | .encaps _ =>
    let ek := if key.isSome then own else a
    { out := cryptoBytes .mlkemEncaps [leBytes 2 k.alg, ek, rand] k.ctLen
      secret := some (cryptoBytes .mlkemSecret [leBytes 2 k.alg, ek, rand] 32) }
  | .decaps _ => { secret := some (cryptoBytes .mlkemDecaps (kb ++ [a]) 32) }
  | .signHedged _ => { out := cryptoBytes .mldsaSign (kb ++ [a, rand]) k.ctLen }
  | .signDet _ => { out := cryptoBytes .mldsaSign (kb ++ [a, zeros 32]) k.ctLen }
  | .verify _ =>
    let pk := if key.isSome then own else ins.getD 2 []
    if Config.cryptoOk .mldsaSign [leBytes 2 k.alg, pk, a, b] then {} else { status := St.authFail }
  | .attest => match key with
    | some y => { out := attestation s y a rand }
    | none => {}

end Sys2Proof.Machine
end

