-- ==== Sys2Proof/Machine/Pools.lean ====
section
/-! DEFINITION. The two pools: screening (R252, R325), loading, start, completion, faults, recovery and the expanded-key
cache (R475 to R493, R498 to R522), and the commands of this family. -/

namespace Sys2Proof.Machine

/-! ### Occupancy -/

/-- Places in use (R476, R498). -/
def Pool.places {n : Nat} (p : Pool n) : Nat :=
  p.queue.length + p.engines.toList.foldl (fun k e => k + e.jobs.length) 0 + (p.done.filter (·.place)).length

/-- Outstanding jobs of an instance (R325). -/
def Pool.ofInst {n : Nat} (p : Pool n) (i : Nat) : Nat :=
  (p.queue.filter fun j => j.inst == i).length
    + p.engines.toList.foldl (fun k e => k + (e.jobs.filter fun j => j.inst == i && !j.aborted).length) 0
    + (p.done.filter fun d => d.place && d.inst == i).length

/-- A big-number engine is online: in service, enabled is apart, and powered (R475, R784). -/
def bneOnline (s : State) (e : Nat) : Bool := (vget s.bne.engines e {}).online && domOn s (16 + e)

/-- A lattice engine is online; a disabled one counts as offline (R522, R784). -/
def lteOnline (s : State) (e : Nat) : Bool :=
  (vget s.lte.engines e {}).online && blockEn s 9 e && domOn s (32 + e)

/-- Bits of an engine's slots. -/
def slotBits (e : PoolEngine) : Nat := 64 * e.slotWords

/-- A big-number engine as it takes its next job: one that holds no job has the slot length of `BNE_SLOT` (R496). -/
def bneEngine (s : State) (e : Nat) : PoolEngine :=
  let x := vget s.bne.engines e {}
  if x.jobs.isEmpty then { x with slotWords := clamp 4 128 (fld s (winBase 8 e + 0xC) 0 7) } else x

/-- A job of width `w` is eligible for a big-number engine (R475). -/
def bneEligible (s : State) (w e : Nat) : Bool :=
  bneOnline s e && blockEn s 8 e && decide (w ≤ slotBits (bneEngine s e))

/-! ### Screening -/

/-- Reserved bytes of a call block (Table 5.7). -/
def callRsvdOk (blk : List Byte) : Bool := rsvdOk blk 2 6 && rsvdOk blk 56 8

/-- References of a call block: three inputs, two outputs. -/
def callRefs (blk : List Byte) : List BufRef := [8, 16, 24, 32, 40].map (refAt blk)

/-- The destination of a call partly overlaps one of its sources (R219). -/
def callOverlap (refs : List BufRef) : Bool := (refs.take 3).any fun r => partOverlap (refs.getD 3 {}) r

/-- Table 5.2 rows 1 to 4 for a call: `usage` lists the bits of which one suffices. -/
def callKeyCheck (key : Option KeyRec) (engine : Nat) (usage : List Nat) (suits : Nat → Bool) : Nat :=
  match key with
  | none => St.noHandle
  | some k =>
    if bitOf k.attrs.engines engine = false then St.keyEngineMismatch
    else if usage ≠ [] ∧ usage.any (bitOf k.attrs.usage) = false then St.keyPolicy
    else if suits k.attrs.alg = false then St.paramInvalid
    else 0

/-- The settings that a job would start with (R486). -/
def blind128 (s : State) : Bool := s.pwr.committed.blind128

/-- Screening of a `PKCALL` (R252, R475, R479, R481, R484): its status. -/
def screenBne (s : State) (inst : Nat) (keyed : Bool) (key : Option KeyRec) (blk : List Byte) (ins : List (List Byte)) :
    Nat :=
  let refs := callRefs blk
  match bneKind (fieldAt blk 0 2) with
  | none => St.paramInvalid
  | some k =>
    let y := if keyed then key else none
    let keySt := if keyed then callKeyCheck key eBne k.usage k.suits else 0
    if (if keyed then k.keyed else k.pub) = false ∨ callRsvdOk blk = false ∨ refs.all BufRef.valid = false
        ∨ (0 < k.outLen y keyed ins ∧ callOverlap refs = true) ∨ (refs.getD 3 {}).len < k.outLen y keyed ins
        ∨ (keyed = true ∧ k.derives = true ∧
            (parseSpec (ins.getD 1 []) (8 * ceilDiv (k.width none ins) 8)).isNone = true) then St.paramInvalid
    else if keySt ≠ 0 then keySt
    else if k.operandsOk y ins = false ∨ 4350000 < bneNominal k y ins (blind128 s) (vasOn s) then St.pkInputRange
    else
      let engines := List.range s.variant.bneEngines
      if engines.any (bneOnline s) = false then St.engineAborted
      else if engines.any (bneEligible s (k.width y ins)) = false then St.pkInputRange
      else if 4096 ≤ s.bne.places ∨ (((cfgV s).share inst).map (·.bneCredits)).getD 0 ≤ s.bne.ofInst inst then St.poolFull
      else 0

/-- Screening of an `LTCALL` (R252, R500, R502 to R505); `own` says that the chain's open transaction created the key
(R255). -/
def screenLte (s : State) (inst : Nat) (keyed : Bool) (key : Option KeyRec) (own : Bool) (blk : List Byte)
    (ins : List (List Byte)) : Nat :=
  let refs := callRefs blk
  match lteKind (fieldAt blk 0 2) with
  | none => St.paramInvalid
  | some k =>
    let keySt :=
      if keyed = false then 0
      else if k = .attest then (if key.isNone then St.noHandle else if own then St.keyPolicy else 0)
      else callKeyCheck key eLte k.usage.toList k.suits
    if (keyed = false ∧ k.pub = false) ∨ callRsvdOk blk = false ∨ refs.all BufRef.valid = false
        ∨ (0 < k.outLen ∧ callOverlap refs = true) ∨ (refs.getD 3 {}).len < k.outLen
        ∨ (match k.specIn keyed with
            | some i => (parseSpec (ins.getD i []) 256).isNone
            | none => false) = true then St.paramInvalid
    else if keySt ≠ 0 then keySt
    else if k.operandsOk keyed ins = false then St.pkInputRange
    else if (List.range s.variant.lteEngines).any (lteOnline s) = false then St.engineAborted
    else if 4096 ≤ s.lte.places ∨ (((cfgV s).share inst).map (·.lteCredits)).getD 0 ≤ s.lte.ofInst inst then St.poolFull
    else 0

/-! ### Engines of a pool -/

/-- The job to load next and the engine that takes it: issue order, passing a job only where no engine has room for it
(R476, R499). -/
def nextLoad (room : PoolJob → Option Nat) : List PoolJob → Option (PoolJob × Nat)
  | [] => none
  | j :: l => match room j with
    | some e => some (j, e)
    | none => nextLoad room l

/-- Load the next job. -/
def Pool.load {n : Nat} (p : Pool n) (room : PoolJob → Option Nat) (t : Nat) : Pool n :=
  match nextLoad room p.queue with
  | some (j, e) =>
    ({ p with queue := p.queue.filter fun i => i.num != j.num }).mod e fun x =>
      { x with loaded := x.loaded ++ [j], first := if x.loaded.isEmpty then t else x.first }
  | none => p

/-- The running job leaves its engine; a delivered one leaves its results in the output store (R493, R501). -/
def Pool.finish {n : Nat} (p : Pool n) (e : Nat) (j : PoolJob) (st : Nat) (out : List Byte)
    (handle : Option (KReg × KeyRec)) : Pool n :=
  let p := p.mod e fun x => { x with running := none }
  if j.aborted || j.scrub then p
  else { p with done := p.done ++
    [{ num := j.num, serial := j.serial, inst := j.inst, status := st, out := out, blk := j.blk, outs := j.outs,
       handle := handle }] }

/-- The ticket of a pool job completes, unless the job was aborted (R490). -/
def poolTicket (s : State) (j : PoolJob) (st : Nat) : State :=
  if j.aborted || j.scrub then s
  else mapChain (countStatus s (some j.inst) st) j.serial fun x => completeTicket x j.num st

/-- Job `j` of an engine completes without output, before its start or at its nominal end; the next loaded one is first from
tick `t` on (R485, R514). -/
def Pool.failLoaded {n : Nat} (p : Pool n) (e : Nat) (j : PoolJob) (st t : Nat) : Pool n :=
  let p := p.mod e fun x => { x with loaded := x.loaded.filter (fun i => i.num != j.num), first := t }
  { p with done := p.done ++
    [{ num := j.num, serial := j.serial, inst := j.inst, status := st, blk := j.blk, outs := j.outs }] }

/-- The chain of a job. -/
def chainOf (s : State) (serial : Nat) : Option Item := (liveChains s).find? fun x => x.serial == serial

/-- The key that a derivation places in the key cache (R372, R481, R505): its domain is that of the running image. The status
that this adds, the handle and the state; none while the system DRBG cannot serve its draws (Table 13.3). A cache without room
gives `KEY_CACHE_FULL` (log 107). -/
def secretKey (s : State) (j : PoolJob) (secret : Option (List Byte)) : Option (Nat × Option (KReg × KeyRec) × State) :=
  match secret, j.spec, chainOf s j.serial with
  | some b, some (r, a), some x =>
    let (u, s) := newUid s
    (sysDraw s .ksc 5).bind fun iv =>
      let k : KeyRec := { name := { dom := x.imageDom, idx := 0, gen := 0, uid := u }, attrs := a, material := b,
                          ivFixed := leNat iv.1 }
      let k := { k with kcv := kcvOf k }
      match placeKey iv.2 j.inst k with
      | .placed s => some (0, some (r, k), s)
      | .full => some (St.keyCacheFull, none, iv.2)
      | .wait => none
  | _, _, _ => some (0, none, s)

/-! ### Big-number engines -/

/-- Slots in use on an engine. -/
def slotsUsed (e : PoolEngine) : Nat := e.jobs.foldl (fun n j => n + j.slots) 0

/-- Slots of an engine: its 64 KiB over the slot length. -/
def slotCount (e : PoolEngine) : Nat := 65536 / (8 * e.slotWords)

/-- The lowest-numbered eligible engine with room (R476, R477). -/
def bneRoom (s : State) (j : PoolJob) : Option Nat :=
  (List.range s.variant.bneEngines).find? fun e =>
    let x := bneEngine s e
    bneEligible s j.width e && !x.recovering && decide (x.loaded.length < 7 ∧ slotsUsed x + j.slots ≤ slotCount x)

/-- An engine that holds no job takes the slot length written (R496). -/
def setSlots (s : State) (e : Nat) : State := modBne s e fun x => { x with slotWords := (bneEngine s e).slotWords }

/-- BNE_JOB_LOAD (R476, R477). -/
def execBneJobLoad (s : State) : Host.Outcome State Fault Refusal :=
  let s := (List.range s.variant.bneEngines).foldl setSlots s
  .next { s with bne := s.bne.load (bneRoom s) (now s) }

/-- Bytes that a job draws before it starts (Table 11.3): its bases, its nonce, or its blinding and projective coordinates,
which change no result (log 13). -/
def bneDraws (j : PoolJob) : Nat :=
  match bneKind j.op with
  | some .prime => leNat (j.ins.getD 1 []) * baseLen (leNat (j.ins.getD 0 []))
  | some (.ecSign x) => fieldLen x
  | some .modMul | some .modExp | some .modInv | some (.ecPoint _) | some .rsaPub | none => 0
  | _ => 32

/-- The first loaded job of an engine: the next to start. -/
def firstJob (e : PoolEngine) : Option PoolJob := if e.recovering then none else e.loaded.head?

/-- The first loaded job of an engine that may start. -/
def startable (e : PoolEngine) : Option PoolJob := if e.running.isSome then none else firstJob e

/-- The first loaded job has made its draw. -/
def noteDrawn (e : PoolEngine) (f : PoolJob → PoolJob) : PoolEngine :=
  { e with loaded := match e.loaded with
      | j :: l => { f j with drawn := true } :: l
      | [] => [] }

/-- An engine starts job `j` at tick `t` (R486, R515). -/
def startJob (e : PoolEngine) (j : PoolJob) (t : Nat) : PoolEngine :=
  { e with running := some j, loaded := e.loaded.filter (fun i => i.num != j.num), first := t, ops := (e.ops + 1) % 2 ^ 64 }

/-- The first loaded job draws its randomness (R485); none while it waits for the system DRBG. -/
def bneDraw (s : State) (e : Nat) : Option State := match firstJob (vget s.bne.engines e {}) with
  | none => some s
  | some j =>
    if j.drawn = true ∨ bneDraws j = 0 then some s
    else (sysDraw s .bne (bneDraws j)).map fun r => modBne r.2 e fun x => noteDrawn x fun j => { j with rand := r.1 }

/-- BNE_JOB_START (R485, R486): the first loaded job draws, also while another runs, and starts on an idle engine. -/
def execBneJobStart (e : Nat) (s : State) : Host.Outcome State Fault Refusal :=
  .next <| match bneDraw s e with
  | none => sysWait s .bne
  | some s => match startable (vget s.bne.engines e {}) with
    | none => s
    | some j => modBne s e fun x => startJob x { j with vas := vasOn s, blind128 := blind128 s } (now s)

/-- The first loaded job of an engine has waited 100 µs for its randomness: it completes `RNG_UNAVAILABLE` (R485, R514). -/
def waitedOut (s : State) (x : PoolEngine) : Bool := !sysReady s && drawLate s x.first

/-- BNE_RNG_TIMEOUT (R485). -/
def execBneRngTimeout (e : Nat) (s : State) : Host.Outcome State Fault Refusal :=
  .next <|
    let x := vget s.bne.engines e {}
    match firstJob x with
    | some j =>
      if j.drawn = false ∧ bneDraws j ≠ 0 ∧ waitedOut s x = true then
        poolTicket { s with bne := s.bne.failLoaded e j St.rngUnavailable (now s) } j St.rngUnavailable
      else s
    | none => s

/-- The running job ends with a status, its result and its handle (R483, R487 to R491): a fault that it met, or an invariant
that failed, is counted now, and the engine recovers. -/
def endBne (s : State) (e : Nat) (j : PoolJob) (st : Nat) (r : PoolOut) (h : Option (KReg × KeyRec)) : State :=
  let s := { s with bne := s.bne.finish e j st (if st = 0 then r.out else []) h }
  let s := if j.aborted then s else modBne s e fun x =>
    { x with
      generic := if st = St.pkGeneric then satInc 65535 x.generic else x.generic
      invariant := if st = St.pkInvariant then satInc 65535 x.invariant else x.invariant }
  let s := if j.faulted then bneTrouble s e true
    else if st = St.pkInvariant ∧ j.aborted = false then bneTrouble s e false else s
  poolTicket s j st

/-- The running job's secret waits for the draw of `iv_fixed` (Table 13.3). -/
def secretWaits (x : PoolEngine) (t : Nat) : PoolEngine :=
  { x with running := x.running.map fun j => { j with asked := some (j.asked.getD t) } }

/-- BNE_JOB_COMPLETE (R483, R487 to R491). -/
def execBneJobComplete (e : Nat) (slotsOk invariantOk : Bool) (s : State) : Host.Outcome State Fault Refusal :=
  .next <| match (vget s.bne.engines e {}).running with
  | none => s
  | some j =>
    match bneKind j.op with
    | none => endBne s e j St.engineAborted {} none
    | some k =>
      let r := bneResult k (if j.keyed then j.key else none) j.ins j.rand
      let bad := k.hasInvariant j.vas && !invariantOk
      let st := if j.faulted then St.engineAborted else if bad then St.pkInvariant
        else if !slotsOk then St.pkGeneric else r.status
      match (if st = 0 ∧ j.aborted = false then secretKey s j r.secret else some (st, none, s)) with
      | none => sysWait (modBne s e fun x => secretWaits x (now s)) .ksc
      | some (st, h, s) => endBne s e j st r h

/-- A pool job whose secret has waited 100 µs for the system DRBG (Table 13.3). -/
def timeOutPool {n : Nat} (p : Pool n) (e : Nat) (s : State) (f : State → PoolJob → State) : State :=
  match (vget p.engines e {}).running with
  | some j => if j.asked.any (drawLate s) && !sysReady s then f s j else s
  | none => s

/-- BNE_FAULT_DETECTED (R491, R492): the running job ends `ENGINE_ABORTED` at its nominal end, and the rest follows then;
without one it follows at once. -/
def execBneFaultDetected (e : Nat) (s : State) : Host.Outcome State Fault Refusal :=
  .next <|
    let x := vget s.bne.engines e {}
    if x.online = false then s
    else if x.running.isSome then modBne s e fun x => { x with running := x.running.map fun j => { j with faulted := true } }
    else bneTrouble s e true

/-- BNE_RECOVERY_DONE (R492). -/
def execBneRecoveryDone (e : Nat) (pass : Bool) (s : State) : Host.Outcome State Fault Refusal :=
  .next <|
    let x := vget s.bne.engines e {}
    if x.recovering = false ∨ x.running.isSome = true then s
    else if pass then modBne s e fun x => { x with recovering := false }
    else logOpen { s with bne := s.bne.offline e } 8 2 [e]

/-- A write of 1 to `kat_run` (Table 11.9): the engine enters recovery now. -/
def bneKat (s : State) (e : Nat) : State :=
  let x := vget s.bne.engines e {}
  if x.online = true ∧ x.recovering = false then { s with bne := s.bne.recover e } else s

/-- BNE_KAT_RUN (Table 11.9). -/
def execBneKatRun (e : Nat) (s : State) : Host.Outcome State Fault Refusal := .next (bneKat s e)

/-- SLOT_LENGTH_CHANGE (R496): once the engine holds no job. -/
def execSlotLengthChange (e : Nat) (s : State) : Host.Outcome State Fault Refusal :=
  .next (setSlots s e)

/-! ### Lattice engines -/

/-- Tag of the attestation key in an engine's cache: no key entry can address it (R440). -/
def attestKeyName : KeyName := { dom := 0, idx := 0, gen := 0 }

/-- Cache tag that a job needs (R509): none for a public call. -/
def expansionTag (j : PoolJob) : Option (KeyName × Nat) :=
  if j.keyed = false then none
  else if lteKind j.op = some .attest then some (attestKeyName, 0)
  else j.key.map fun k => (k.name, k.csnChanged)

/-- An engine's cache holds the job's key. -/
def cacheHit (x : PoolEngine) (j : PoolJob) : Bool :=
  match expansionTag j with
  | some t => x.cache.any fun c => c.name == t.1 && c.changed == t.2
  | none => false

/-- The engine that takes a job (R499): the lowest-numbered online one with room whose cache holds the key, else the
lowest-numbered one with room. -/
def lteRoom (s : State) (j : PoolJob) : Option Nat :=
  let room := (List.range s.variant.lteEngines).filter fun e =>
    let x := vget s.lte.engines e {}
    lteOnline s e && !x.recovering && decide (x.loaded.length < 3)
  match room.find? fun e => cacheHit (vget s.lte.engines e {}) j with
  | some e => some e
  | none => room.head?

/-- LTE_JOB_LOAD (R499). -/
def execLteJobLoad (s : State) : Host.Outcome State Fault Refusal := .next { s with lte := s.lte.load (lteRoom s) (now s) }

/-- A starting job touches the cache entry that it hits, or counts a miss (R509). -/
def touchCache (x : PoolEngine) (j : PoolJob) : PoolEngine :=
  match expansionTag j with
  | none => x
  | some t =>
    if cacheHit x j then
      { x with
        hits := satInc 65535 x.hits
        cache := x.cache.map fun c => if c.name = t.1 ∧ c.changed = t.2 then { c with used := x.ops } else c }
    else { x with misses := satInc 65535 x.misses }

/-- A job that missed leaves its checked expansion in the cache, under the mask that it drew (R508, R509): the least recently
used of eight entries gives way. -/
def fillCache (x : PoolEngine) (j : PoolJob) (at_ : Nat) : PoolEngine :=
  match expansionTag j, j.fill with
  | some t, some mask =>
    if j.badExp || cacheHit x j then x
    else
      let oldest := x.cache.foldl (fun b c => match b with
        | some y => if c.used < y.used then some c else some y
        | none => some c) (none : Option ExpKey)
      let kept := if x.cache.length < 8 then x.cache else match oldest with
        | some o => x.cache.filter (· != o)
        | none => x.cache
      { x with cache := kept ++ [{ name := t.1, changed := t.2, filled := at_, used := x.ops, mask := mask }] }
  | _, _ => x

/-- An expansion that a starting job makes fails its digest check (R508): the key's own on a miss; for an attestation that of
the attested lattice key, which no cache holds, and on a miss that of the attestation key. -/
def expansionBad (s : State) (x : PoolEngine) (j : PoolJob) : Bool :=
  let key := match j.key with | some k => !expansionOk k | none => false
  let miss := !cacheHit x j
  if j.keyed = false then false
  else if lteKind j.op = some .attest then
    (j.key.any (fun k => !symmetricAlg k.attrs.alg && decide (0x20 ≤ k.attrs.alg)) && key)
      || (miss && (ownKeys s).attestDigest != sha3_256 (ownKeys s).attestPk)
  else miss && key

/-- The job fills a cache entry and has still to draw its mask (R509). -/
def needsMask (x : PoolEngine) (j : PoolJob) : Bool := (expansionTag j).isSome && !cacheHit x j && j.fill.isNone

/-- Bytes of its own randomness that a job has still to draw (Table 12.1). -/
def lteRand (j : PoolJob) : Nat := if ((lteKind j.op).map LteKind.draws).getD false && !j.drawn then 32 else 0

/-- Bytes that a job has still to draw from the system DRBG before it starts: its randomness, and the mask of a cache entry
(R514, Table 13.3). -/
def lteDraws (x : PoolEngine) (j : PoolJob) : Nat := lteRand j + if needsMask x j then 64 else 0

/-- The job with what it drew. -/
def lteDrew (x : PoolEngine) (j : PoolJob) (b : List Byte) : PoolJob :=
  { j with
    rand := if j.drawn then j.rand else b.take (lteRand j)
    fill := if needsMask x j then some (b.drop (lteRand j)) else j.fill }

/-- The first loaded job draws its randomness (R514); none while it waits for the system DRBG. -/
def lteDraw (s : State) (e : Nat) : Option State :=
  let x := vget s.lte.engines e {}
  match firstJob x with
  | none => some s
  | some j =>
    if lteDraws x j = 0 then some s
    else (sysDraw s .lte (lteDraws x j)).map fun r => modLte r.2 e fun y => noteDrawn y fun j => lteDrew x j r.1

/-- LTE_JOB_START (R508, R509, R514, R515): the first loaded job draws, also while another runs, and starts on an idle engine.
-/
def execLteJobStart (e : Nat) (s : State) : Host.Outcome State Fault Refusal :=
  .next <| match lteDraw s e with
  | none => sysWait s .lte
  | some s =>
    let x := vget s.lte.engines e {}
    match startable x with
    | none => s
    | some j => modLte s e fun x => startJob (touchCache x j) { j with vas := vasOn s, badExp := expansionBad s x j } (now s)

/-- LTE_RNG_TIMEOUT (R514). -/
def execLteRngTimeout (e : Nat) (s : State) : Host.Outcome State Fault Refusal :=
  .next <|
    let x := vget s.lte.engines e {}
    match firstJob x with
    | some j =>
      if lteDraws x j ≠ 0 ∧ waitedOut s x = true then
        poolTicket { s with lte := s.lte.failLoaded e j St.rngUnavailable (now s) } j St.rngUnavailable
      else s
    | none => s

/-- The running lattice job ends with a status, its result and its handle (R507, R516, R517): a fault that it met, or a check
that failed, is counted now, and the engine recovers. -/
def endLte (s : State) (e : Nat) (j : PoolJob) (st : Nat) (r : PoolOut) (h : Option (KReg × KeyRec)) : State :=
  let s := { s with lte := s.lte.finish e j st (if st = 0 then r.out else []) h }
  let s := modLte s e fun x =>
    { fillCache x j (now s) with
      generic := if st = St.pkGeneric then satInc 65535 x.generic else x.generic
      invariant := if st = St.pkInvariant then satInc 65535 x.invariant else x.invariant }
  let s := if j.faulted then lteTrouble s e true else if st = St.pkInvariant then lteTrouble s e false else s
  poolTicket s j st

/-- Completion of a lattice job with the given rejection iterations; `limit` says that signing reached 1,000 without
acceptance. -/
def finishLte (s : State) (e : Nat) (j : PoolJob) (k : LteKind) (iters : Nat) (limit invariantOk : Bool) : State :=
  let r := lteResult s k (if j.keyed then j.key else none) j.ins j.rand
  let bad := j.badExp || (j.vas && k.signs && !invariantOk && !limit)
  let st := if j.faulted then St.engineAborted else if bad then St.pkInvariant else if limit then St.pkGeneric else r.status
  match (if st = 0 then secretKey s j r.secret else some (st, none, s)) with
  | none => sysWait (modLte s e fun x => secretWaits x (now s)) .ksc
  | some (st, h, s) =>
    endLte (modLte s e fun x =>
      { x with
        signs := if k.signs && st == 0 then (x.signs + 1) % 2 ^ 64 else x.signs
        iters := if k.signs && st == 0 then (x.iters + iters) % 2 ^ 64 else x.iters
        iterMax := if k.signs then max x.iterMax iters else x.iterMax }) e j st r h

/-- LTE_JOB_COMPLETE (R507, R511, R512, R516, R517): a signing job ends with 1 to 1,000 iterations. -/
def execLteJobComplete (e iterations : Nat) (invariantOk : Bool) (s : State) : Host.Outcome State Fault Refusal :=
  .next <| match (vget s.lte.engines e {}).running with
  | none => s
  | some j => match lteKind j.op with
    | some k => finishLte s e j k (clamp 1 1000 iterations) false invariantOk
    | none => s

/-- SIGN_ITERATION_LIMIT (R513). -/
def execSignIterationLimit (e : Nat) (s : State) : Host.Outcome State Fault Refusal :=
  .next <| match (vget s.lte.engines e {}).running with
  | none => s
  | some j => match lteKind j.op with
    | some k => if k.signs then finishLte s e j k 1000 true true else s
    | none => s

/-- LTE_FAULT_DETECTED (R517): the running job ends `ENGINE_ABORTED`, and the rest follows then; without one it follows at
once. -/
def execLteFaultDetected (e : Nat) (s : State) : Host.Outcome State Fault Refusal :=
  .next <|
    let x := vget s.lte.engines e {}
    if x.online = false then s
    else if x.running.isSome then modLte s e fun x => { x with running := x.running.map fun j => { j with faulted := true } }
    else lteTrouble s e true

/-- LTE_RECOVERY_DONE (R518). -/
def execLteRecoveryDone (e : Nat) (pass : Bool) (s : State) : Host.Outcome State Fault Refusal :=
  .next <|
    let x := vget s.lte.engines e {}
    if x.recovering = false ∨ x.running.isSome = true then s
    else if pass then modLte s e fun x => { x with recovering := false }
    else logOpen { s with lte := s.lte.offline e } 9 2 [e]

/-- A write of 1 to `kat_run` (Table 12.6). -/
def lteKat (s : State) (e : Nat) : State :=
  let x := vget s.lte.engines e {}
  if x.online = true ∧ x.recovering = false then { s with lte := s.lte.recover e } else s

/-- LTE_KAT_RUN (Table 12.6). -/
def execLteKatRun (e : Nat) (s : State) : Host.Outcome State Fault Refusal := .next (lteKat s e)

/-- A write of 1 to `cache_flush` (R510). -/
def flushCache (s : State) (e : Nat) : State := modLte s e fun x => { x with cache := [] }

/-- CACHE_FLUSH (R510). -/
def execCacheFlush (e : Nat) (s : State) : Host.Outcome State Fault Refusal := .next (flushCache s e)

/-- Sweep period in ticks (`period_ms`, Table 8.8). -/
def remaskPeriod (s : State) : Nat := clamp 100 1000 (fld s 0x0004000C 0 10) * tickMs

/-- EXPANDED_KEY_AGE_OUT (R510). -/
def execExpandedKeyAgeOut (e : Nat) (s : State) : Host.Outcome State Fault Refusal :=
  .next (modLte s e fun x => { x with cache := x.cache.filter fun c => decide (now s < c.filled + remaskPeriod s) })

/-- POOL_SCREEN_FAIL_COMPLETE (R252). -/
def execPoolScreenFailComplete (ticket : Nat) (s : State) : Host.Outcome State Fault Refusal :=
  .next <| if 4 ≤ ticket / 2 ^ 60 then failTicket s ticket else s

end Sys2Proof.Machine
end

