-- ==== Sys2Proof/Machine/Alarm.lean ====
section
/-! DEFINITION. Hold-Water entry (R731), alarm sources, responses and evidence (chapter 18), and the commands of this
family. -/

namespace Sys2Proof.Machine

/-! ### The fence and Hold-Water -/

/-- Change the `service` bit of every host port (R547): announcements follow within one second of service starting. -/
def setService (s : State) (b : Bool) : State :=
  (upTo 0 (s.variant.hostPorts - 1)).foldl (fun s p => modPort s p fun x =>
    { x with
      service := b
      announce := if b then [now s, now s + 100 * tickMs, now s + tickS] else [] }) s

/-- The fence and `service` drop (R625, R626). -/
def dropFence (s : State) : State :=
  let s := setService s false
  { s with prl := { s.prl with fence := false } }

/-- Failure codes used outside the start stages (Table 19.2). -/
def fcEvidenceFull : Nat := 0x0102
def fcRebuildFail : Nat := 0x0901
def fcTampered : Nat := 0x0902
def fcDebugZeroized : Nat := 0x0903

/-- The unit enters Hold-Water (R731, R779, R804). The pair state returns to code 0, whose outputs Table 16.2 gives as
Hold-Water needs them (log 27). -/
def enterHoldWater (s : State) (code : Nat) : State :=
  let s := s.net.sessions.foldl (fun s x =>
    if x.state = .halfOpen then { s with net := { s.net with sessions := s.net.sessions.filter fun y => y.id != x.id } }
    else closeSess s x.id St.holdWater 16) s
  let s := dropFence (setBit s 0x00040004 0 false)
  let s := (List.range 4).foldl (fun s p => setBit s (hptAddr p 4) 0 false) s
  let s := endPermits (cancelCers s fun _ => true)
  { s with
    lcf := { s.lcf with holdWater := true, failure := code }
    bin := { s.bin with firstPower := s.bin.firstPower && !s.pwr.starting }
    pwr := { s.pwr with starting := false }
    prl := { s.prl with state := .undecided, joined := false, peerJoining := false, pendingSolo := false,
                        pendingRenounce := false, handbackAt := none }
    smb := { s.smb with alert := true } }

/-- A start ends in Hold-Water; one that fails before COX_BOOT still runs that stage (R726). -/
def failStart (s : State) (code : Nat) : State :=
  if s.lcf.stage < 3 then { s with lcf := { s.lcf with deferredFailure := code, failure := code } }
  else enterHoldWater s code

/-! ### Zeroize (Table 18.5) -/

/-- Every engine of a kind clears its key register, buffers and saved state (R462). -/
def clearSym (e : SymEngine) : SymEngine := { e with queue := [], running := none, saved := [], keyReg := none }

/-- A pool stops and is zeroed (R494, R520). -/
def clearPool {n : Nat} (p : Pool n) : Pool n :=
  { p with queue := [], done := [], engines := p.engines.map fun e => { e with loaded := [], running := none, cache := [] } }

/-- Step Z1: engines clear, and no reply leaves. -/
def zeroZ1 (s : State) : State :=
  { s with
    cph := s.cph.map clearSym, hsh := s.hsh.map clearSym, cvu := s.cvu.map clearSym
    bne := clearPool s.bne, lte := clearPool s.lte
    net := { s.net with held := [] } }

/-- Step Z3: the root share, the store keys and the memory master key go, and the RTC is not valid. -/
def zeroZ3 (s : State) : State :=
  { s with
    bin := { s.bin with share := false, rtcValid := false }
    ksc := { s.ksc with rootOk := false, kRecord := none, kJournal := none }
    mec := { s.mec with master := [], masterNew := [], masterRunning := false } }

/-- A core loses its chain, its handles and its LDM. -/
def clearCore (k : Core) : Core :=
  { k with ctx := { k.ctx with k := Vector.replicate 16 none }, ldm := [], owner := none, item := none, pendG := [],
           pendK := [], cycles := 0, since := 0, avail := [], scrLate := [] }

/-- Step Z4: caches, LDM, contexts, DRBG states and session keys go, and every chain ends without a reply. -/
def zeroZ4 (s : State) : State :=
  { s with
    ksc := { s.ksc with cache := [], counters := [] }
    cores := s.cores.map clearCore
    cvctx := Vector.replicate 144 {}
    rng := { s.rng with
      drbg := s.rng.drbg.map fun d => { d with state := .unseeded, key := [], v := [] }, seedBuf := [], data := none, waits := [] }
    net := { s.net with sessions := [], retention := [], held := [], hellos := [] }
    dsp := { s.dsp with work := [], parked := [], delay := [], reserved := [] } }

/-- The zeroize line: steps Z1 to Z4, then Hold-Water with the given failure code. -/
def zeroize (s : State) (code : Nat) : State :=
  enterHoldWater (zeroZ4 (zeroZ3 (dropFence (zeroZ1 s)))) code

/-! ### Lock (R702) -/

/-- Jobs of an engine that have not started complete `TAMPER_LOCK`. -/
def lockEngine (k : SymKind) (s : State) (n : Nat) : State :=
  let e := engineOf s k n
  e.queue.foldl (fun s j => finishSym s j St.tamperLock) (setEngine s k n { e with queue := [] })

/-- Results of pool jobs that complete without running. -/
def failedDone (st : Nat) (j : PoolJob) : PoolDone :=
  { num := j.num, serial := j.serial, inst := j.inst, status := st, blk := j.blk, outs := j.outs }

/-- Jobs of a pool that have not started. -/
def Pool.unstarted {n : Nat} (p : Pool n) : List PoolJob := p.queue ++ p.engines.toList.flatMap (·.loaded)

/-- A pool whose unstarted jobs complete with a status. -/
def Pool.failUnstarted {n : Nat} (p : Pool n) (st : Nat) : Pool n :=
  { p with queue := [], done := p.done ++ p.unstarted.map (failedDone st),
           engines := p.engines.map fun e => { e with loaded := [] } }

/-- A key instruction that waits for the key store or a DRBG completes `TAMPER_LOCK`. -/
def lockPendK (p : PendK) : PendK :=
  match p.op, p.wait with
  | .kdrop, _ => p
  | _, .fill | _, .drbg => { p with wait := .ready, status := St.tamperLock, handle := none, ldm := [], out := [] }
  | _, _ => p

/-- Lock comes into force (R702). -/
def lockNow (s : State) : State :=
  let s := { s with bin := { s.bin with lock := true } }
  let s := (List.range 16).foldl (lockEngine .cipher) s
  let s := (List.range 16).foldl (lockEngine .hash) s
  let s := (List.range 9).foldl (lockEngine .check) s
  let jobs := s.bne.unstarted ++ s.lte.unstarted
  let s := { s with bne := s.bne.failUnstarted St.tamperLock, lte := s.lte.failUnstarted St.tamperLock }
  let s := jobs.foldl (fun s j => poolTicket s j St.tamperLock) s
  let s := { s with cores := s.cores.map fun k => { k with pendK := k.pendK.map lockPendK } }
  cancelCers s fun _ => true

/-! ### Sources (Table 18.2) -/

/-- Default response of a source. -/
def defaultResp (n : Nat) : Nat :=
  if n ≤ 12 then 4 else if n = 13 then 0 else if n ≤ 17 then 4 else if n = 18 then 1 else if n ≤ 21 then 4
  else if n = 22 then 2 else if n ≤ 24 then 0 else if n = 25 then 3 else if n = 26 then 0 else if n = 27 then 1 else 0

/-- Floor of a source. -/
def floorResp (n : Nat) : Nat :=
  if n ≤ 7 then 3 else if n ≤ 12 then 4 else if n = 13 then 0 else if n = 14 then 4 else if n ≤ 17 then 3
  else if n = 18 then 1 else if n = 19 then 3 else if n ≤ 21 then 4 else if n = 22 then 2 else if n ≤ 24 then 0
  else if n = 25 then 3 else 0

/-- Configured response of a source. -/
def confResp (s : State) (n : Nat) : Nat := (vget s.bin.resp n none).getD (defaultResp n)

/-- Effective response (R704, R706): on backup the copy of the disable fuses counts. -/
def effective (s : State) (n : Nat) : Nat :=
  if bitOf (if s.pwr.mainPower then s.bin.disabled else s.bin.fuseCopy) n then 7 else max (min 4 (confResp s n)) (floorResp n)

/-- Code of the strongest response in force. -/
def inForce (s : State) : Nat :=
  if s.bin.zeroize then 4 else if s.bin.lock then 3 else if s.bin.lockNew then 2
  else if s.bin.throttle.isEmpty then 0 else 1

/-- `etmp_filter` in force. -/
def etmpFilter (s : State) : Nat := clamp 1 15 (fld s 0x000F0020 8 4)

/-- Latency of a source on main power in ticks (Table 18.3; R700 for event sources; R697 for BATT_LOW). -/
def latency (s : State) (n : Nat) : Nat :=
  if n ≤ 7 then etmpFilter s * 160
  else if n ≤ 11 then 16000 else if n = 12 then 160 else if n = 13 then tickS else if n = 14 then 800
  else if n = 15 then 160000 else if n = 16 then 16 else if n = 17 then 2 else if n ≤ 19 then 16000
  else if n = 20 then 16 else if n = 21 then 160 else 16000

/-- Latency of a Binnacle source on backup in ticks (Table 18.3). -/
def backupLatency (s : State) (n : Nat) : Nat :=
  if n ≤ 7 then etmpFilter s * 16000 else if n = 12 then 32000 else if n = 15 then 1600000 else latency s n

/-- Ticks that the RTC has counted: it runs without main power too (R722). -/
def rtcTicks (s : State) : Nat := (s.bin.rtc * tickS + s.bin.rtcAcc) / 32768

/-- The condition of a source has been absent for one latency period (R700), by the RTC on backup. -/
def absentLong (s : State) (n : Nat) (x : Source) : Bool :=
  match x.absentAt with
  | some t => if s.pwr.mainPower then decide (t + latency s n ≤ now s) else decide (x.absentRtc + backupLatency s n ≤ rtcTicks s)
  | none => true

/-- A main-power source acts from its stage on (R727, Table 19.4). -/
def acts (s : State) (n : Nat) : Bool :=
  if n ≤ 15 then true
  else s.pwr.mainPower && decide ((if n ≤ 21 then 1 else if n = 22 then 5 else if n = 23 then 6 else if n = 24 then 8
    else if n = 25 then (if blockEn s 16 0 then 2 else 3) else if n ≤ 27 then 3 else 7) ≤ s.lcf.stage)

/-- Source state. -/
def sourceOf (s : State) (n : Nat) : Source := vget s.bin.sources n {}

/-- Change a source. -/
def modSource (s : State) (n : Nat) (f : Source → Source) : State :=
  { s with bin := { s.bin with sources := vset s.bin.sources n (f (sourceOf s n)) } }

/-- The unit is in service: its start reached SERVICE and no Hold-Water followed. -/
def inService (s : State) : Bool := s.lcf.stage == 9 && !s.lcf.holdWater && s.pwr.mainPower

/-- Phase of an event (Table 18.7). -/
def phaseOf (s : State) : Nat := if s.pwr.mainPower = false then 2 else if s.lcf.stage = 9 then 0 else 1

/-- Latch an event in the evidence register (R717, R718). -/
def latchEvidence (s : State) (e : Evidence) : State :=
  if s.bin.pend.length < 8 then { s with bin := { s.bin with pend := s.bin.pend ++ [e] } }
  else { s with bin := { s.bin with overflow := satInc 65535 s.bin.overflow } }

/-- The event of a firing. -/
def eventOf (s : State) (src resp detail : Nat) (notApplied : Bool) : Evidence :=
  let ph := phaseOf s
  { rtc := s.bin.rtc, src := src, resp := resp, phase := ph, flags := b2n s.bin.rtcValid + 4 * b2n notApplied,
    stage := if ph = 1 then s.lcf.stage else 0, cycles := s.bin.cycles, detail := detail, optime := s.log.optime }

/-- A response comes into force on main power (Table 18.4, R713). -/
def applyResponse (s : State) (src eff : Nat) : State :=
  let starting := s.lcf.stage < 9 && !s.lcf.holdWater
  let s := if 1 ≤ eff then { s with smb := { s.smb with alert := true } } else s
  match eff with
  | 0 => s
  | 1 =>
    let s := { s with bin := { s.bin with throttle := s.bin.throttle ++ (if s.bin.throttle.contains src then [] else [src]) } }
    if inService s = true ∧ s.pwr.forced = false then
      applyProfile { s with pwr := { s.pwr with forced := true, unforceAt := none } } 2 true
    else { s with pwr := { s.pwr with unforceAt := none } }
  | 2 => { s with bin := { s.bin with lockNew := true } }
  | 3 =>
    let s := lockNow { s with bin := { s.bin with lockNew := true } }
    if starting then failStart s fcTampered else s
  | _ =>
    let s := { s with bin := { s.bin with zeroize := true } }
    if starting && decide (s.lcf.stage < 3) then
      failStart (zeroZ4 (zeroZ3 (dropFence (zeroZ1 s)))) fcTampered
    else zeroize s fcTampered

/-- Entries of the alarm record queue in use: it drains by the next elapsed tick (R712, log 58). -/
def alarmQueued (s : State) : Nat := if s.bin.queuedAt = now s then s.bin.queued else 0

/-- Log record of a firing, through the alarm record queue of 8 entries (R701, R711, R712). -/
def logFiring (s : State) (src eff detail : Nat) : State :=
  if 8 ≤ alarmQueued s then { s with bin := { s.bin with queueLost := satInc 65535 s.bin.queueLost } }
  else
    logFull { s with bin := { s.bin with queued := alarmQueued s + 1, queuedAt := now s } } 0x0F01 0x0F 4 false 0
      [src, eff, detail, phaseOf s] (decide (2 ≤ eff))

/-- A source fires (R701, R704, R706, R714, R716). -/
def fire (s : State) (src detail : Nat) : State :=
  let eff := effective s src
  if eff = 7 then s
  else
    let s := modSource s src fun x => { x with count := satInc 65535 x.count }
    let s := setBit s 0x000F0010 src
    if s.pwr.mainPower then
      let s := logFiring s src eff detail
      let s := if 2 ≤ eff then latchEvidence s (eventOf s src eff detail false) else s
      applyResponse s src eff
    else
      let s := if eff = 4 then { s with bin := { s.bin with share := false, rtcValid := false } } else s
      latchEvidence s (eventOf s src eff detail (decide (eff ≠ 4)))

/-- The condition of a source holds: it fires when the condition first holds, or again after an absence of one latency
period (R700). -/
def condition (s : State) (src detail : Nat) : State :=
  let x := sourceOf s src
  if acts s src = false ∨ effective s src = 7 then s
  else if x.active then s
  else
    let armed := absentLong s src x
    let s := modSource s src fun x => { x with active := true }
    if armed then fire s src detail else s

/-- An event source fires at its event (R700). -/
def alarmEvent (s : State) (src detail : Nat) : State :=
  let x := sourceOf s src
  if acts s src = false then s
  else
    let armed := absentLong s src x
    let s := modSource s src fun x => { x with absentAt := some (now s), absentRtc := rtcTicks s }
    if armed then fire s src detail else s

/-! ### Commands -/

/-- Low 32 bits of a number in two's complement. -/
def twos (n : Int) : Nat := (BitVec.ofInt 32 n).toNat

/-- Next state of a loop's sequence, x^16 + x^14 + x^13 + x^11 + 1 (R699; log 59). -/
def loopNext (x : Nat) : Nat := x / 2 + (x + x / 4 + x / 8 + x / 32) % 2 * 2 ^ 15

/-- `k` bits of the sequence from a state on. -/
def loopBits (x : Nat) : Nat → List Bool
  | 0 => []
  | k + 1 => (x % 2 == 1) :: loopBits (loopNext x) k

/-- What loop `n` should receive in `k` samples, after `start` since its seed was drawn (R698, R699). -/
def loopDriven (s : State) (n start k : Nat) : List Bool :=
  if rbit s 0x000F0020 n then (loopBits (leNat (slice s.bin.seeds (2 * n) 2)) (start % 65535 + k)).drop (start % 65535)
  else List.replicate k true

/-- The last `etmp_filter` samples all differ from what the loop should receive (R698, R699). -/
def loopFails (s : State) (n : Nat) (l : LoopSamples) : Bool :=
  let f := etmpFilter s
  let bad := List.zipWith (fun a b => a != b) l.bits (loopDriven s n l.start l.bits.length)
  decide (f ≤ bad.length) && (bad.drop (bad.length - f)).all id

/-- The last 8 received samples, the latest in bit 0 (Table 18.2; log 59). -/
def lastSamples (l : List Bool) : Nat := (l.drop (l.length - 8)).foldl (fun n b => 2 * n + b2n b) 0

/-- ETMP_LOOP_FAIL (R698, R699): what loop `n` has received. -/
def execEtmpLoopFail (n : Nat) (samples : LoopSamples) (s : State) : Host.Outcome State Fault Refusal :=
  .next <|
    if n < 8 ∧ loopFails s n samples = true then
      condition s n (b2n (rbit s 0x000F0020 n) + lastSamples samples.bits * 256)
    else s

/-- CASE_OPEN (R697). -/
def execCaseOpen (n : Nat) (s : State) : Host.Outcome State Fault Refusal :=
  .next <| if n < 4 then condition s (8 + n) 0 else s

/-- MESH (R697): the mask of failing loops. -/
def execMesh (loops : Nat) (s : State) : Host.Outcome State Fault Refusal :=
  .next <| if loops % 65536 = 0 then s
  else condition { s with bin := { s.bin with meshFail := loops % 65536 } } 12 (loops % 65536)

/-- VBAT is measured. -/
def setVbat (s : State) (mv : Nat) : State := { s with bin := { s.bin with vbat := mv } }

/-- BATT_LOW (R697): VBAT below 2.7 V for 1 s. -/
def execBattLow (mv : Nat) (s : State) : Host.Outcome State Fault Refusal :=
  .next <| if mv < 2700 then condition (setVbat s mv) 13 mv else setVbat s mv

/-- BATT_CRIT (R697): on backup, VBAT below 2.35 V. -/
def execBattCrit (mv : Nat) (s : State) : Host.Outcome State Fault Refusal :=
  .next <| if mv < 2350 ∧ s.pwr.mainPower = false then condition (setVbat s mv) 14 mv else setVbat s mv

/-- BIN_TEMP (R697). -/
def execBinTemp (celsius : Int) (s : State) : Host.Outcome State Fault Refusal :=
  .next <|
    let s := { s with bin := { s.bin with temp := celsius } }
    if celsius < -30 ∨ 90 < celsius then condition s 15 (twos celsius) else s

/-- SUPPLY (R697): not while an orderly power-down runs. -/
def execSupply (detail : Nat) (s : State) : Host.Outcome State Fault Refusal :=
  .next <| if s.pwr.downRunning then s else condition s 16 detail

/-- CLOCK (R697). -/
def execClock (monitor : Nat) (s : State) : Host.Outcome State Fault Refusal := .next (condition s 17 monitor)

/-- DIE_HOT (R697). -/
def execDieHot (celsius : Nat) (s : State) : Host.Outcome State Fault Refusal :=
  .next <| if 110 ≤ celsius then condition s 18 celsius else s

/-- DIE_COLD (R697). -/
def execDieCold (celsius : Int) (s : State) : Host.Outcome State Fault Refusal :=
  .next <| if celsius ≤ -25 then condition s 19 (twos celsius) else s

/-- LIGHT (R697): the mask of triggered sensors. -/
def execLight (mask : Nat) (s : State) : Host.Outcome State Fault Refusal :=
  .next <| if mask % 2 ^ 32 = 0 then s else condition s 20 (mask % 2 ^ 32)

/-- SHIELD (R697). -/
def execShield (segment : Nat) (s : State) : Host.Outcome State Fault Refusal := .next (condition s 21 segment)

/-- ALARM_CONDITION_CLEAR (R700): the condition of a source no longer holds. -/
def execAlarmConditionClear (src : Nat) (s : State) : Host.Outcome State Fault Refusal :=
  .next <|
    let s := if src = 12 then { s with bin := { s.bin with meshFail := 0 } } else s
    if (sourceOf s src).active then 
      modSource s src fun x => { x with active := false, absentAt := some (now s), absentRtc := rtcTicks s }
    else s

/-- A throttling source whose condition has been absent for 10 s. -/
def throttleOver (s : State) (src : Nat) : Bool :=
  !(sourceOf s src).active &&
    (match (sourceOf s src).absentAt with
      | some t => decide (t + 10 * tickS ≤ now s)
      | none => false)

/-- THROTTLE_END (Table 18.4, R709): the committed profile returns at the next whole Meridian second. -/
def execThrottleEnd (s : State) : Host.Outcome State Fault Refusal :=
  .next <|
    if s.bin.throttle.isEmpty then s
    else
      let left := s.bin.throttle.filter fun n => !throttleOver s n
      let s := { s with bin := { s.bin with throttle := left } }
      if left.isEmpty && s.pwr.forced then
        { s with pwr := { s.pwr with unforceAt := some (ceilDiv s.mer.t tickS * tickS) } }
      else s

/-- The evidence store is full (R720). -/
def evidenceFull (s : State) : Bool := decide (s.variant.evidence ≤ s.bin.used)

/-- Program one event into the store; counted instead where the store is full (R719, R720). -/
def storeEvidence (s : State) (e : Evidence) : State :=
  if evidenceFull s then { s with bin := { s.bin with evidenceLost := satInc 65535 s.bin.evidenceLost } }
  else
    let s := { s with bin := { s.bin with
      store := match s.variant with
        | .wx7480 => s.bin.store ++ [(e, s.bin.used)]
        | .wx7440 => s.bin.store
      used := s.bin.used + 1 } }
    if evidenceFull s && inService s then enterHoldWater s fcEvidenceFull else s

/-- One entry of the evidence register, or its overflow count once the register is empty, is programmed and verified
(R717, R718). Entries of a response below Lock-new leave without a record (R716); those that a start writes say so. -/
def programOne (s : State) (atStart : Bool) : State :=
  let mark := fun e : Evidence => if atStart then { e with flags := e.flags + 2 } else e
  match s.bin.pend with
  | e :: rest =>
    let s := { s with bin := { s.bin with pend := rest } }
    if 2 ≤ e.resp then storeEvidence s (mark e) else s
  | [] =>
    if s.bin.overflow = 0 then s
    else
      let e := mark (eventOf s 0xFF 0 s.bin.overflow false)
      storeEvidence { s with bin := { s.bin with overflow := 0 } } e

/-- EVIDENCE_PROGRAM (R717): `ok` says that the programmed record read back correctly. -/
def execEvidenceProgram (ok : Bool) (s : State) : Host.Outcome State Fault Refusal :=
  .next <| if ok = true ∧ s.pwr.mainPower = true then programOne s false else s

/-- The Binnacle domain powers up with no supply at all: battery-backed fields take their reset values (R696). -/
def binnacleCold (s : State) : State :=
  { s with
    regs := alDel s.regs 0x000F0020
    bin := { s.bin with
      firstPower := true, share := false, rtc := 0, rtcAcc := 0, rtcValid := false, pend := [], overflow := 0, seeds := [],
      fuseCopy := 0, sources := Vector.replicate 29 {}, resp := Vector.replicate 29 none, cycles := 0 } }

/-- The Binnacle domain has a supply: VMAIN in its range, or a cell (R694). -/
def binnacleFed (s : State) : Bool := s.pwr.mainPower || s.pwr.vmainOk || s.bin.vbat != 0

/-- BACKUP_CELL_CONNECT (R696). A cell connected beside another supply
leaves the domain as it is, but for the RTC, which is valid only once it is set again (R107). -/
def execBackupCellConnect (mv : Nat) (s : State) : Host.Outcome State Fault Refusal :=
  .next <|
    if binnacleFed s = false then setVbat (binnacleCold s) mv
    else setVbat { s with bin := { s.bin with rtcValid := false } } mv

end Sys2Proof.Machine
end

