-- ==== Sys2Proof/Machine/Journal.lean ====
section
/-! DEFINITION. Committing (R47 to R62, R268 to R272, R393 to R401), erasure, re-masking, and the configuration, quorum,
program and profile records that Cox commits one at a time; the commands of these families. -/

namespace Sys2Proof.Machine

/-! ### Closing a transaction -/

/-- Result of closing a transaction: a status, and a CSN where a commit was made. -/
structure Committed where
  status : Nat := 0
  csn : Option Nat := none
deriving DecidableEq, Repr

/-- The sums that R286 and R310 bound still hold once the records join every commit before them, also those above the
snapshot (log 100). -/
def sumsFit (s : State) (recs : List Rec) : Bool :=
  let old := cfgAt s (lastCsn s)
  let new := recs.foldl (fun c r => c.applyRec (lastCsn s + 1) r) old
  (holdFits s.variant s.pwr.effective new || decide (holdSum new s.pwr.effective ≤ holdSum old s.pwr.effective))
    && (pinFits s new || decide (pinnedBytes s new ≤ pinnedBytes s old))

/-- The loads among the records still pass R146: their uploads are as they were checked. -/
def loadsPass (s : State) (c : Cfg) (recs : List Rec) : Bool :=
  recs.all fun r => match r with
    | .conf (.imageLoad d i v dig) => (loadable s c d i v dig).isSome
    | _ => true

/-- Commit records checked at snapshot `snap`, consuming the named ceremonies (R50, R271, R418). -/
def tryCommit (s : State) (snap : Nat) (recs : List Rec) (cers : List Nat) (req : Option Requester) : Committed × State :=
  let giveBack := fun s : State => cers.foldl (fun s n => modCer s n fun c => { c with reservedBy := none }) s
  if s.prl.state = .divergent then ({ status := St.divergent }, giveBack s)
  else if recs.isEmpty then ({}, s)
  else if s.ksc.readOnly then ({ status := St.storeReadonly }, giveBack s)
  else if conflicts s snap recs then ({ status := St.commitConflict }, giveBack s)
  else if sumsFit s recs = false then ({ status := St.reservationLimit }, giveBack s)
  else if loadsPass s (cfgAt s snap) recs = false then ({ status := St.imageRejected }, giveBack s)
  else
    let (n, s) := submitCommit (fixLoads s (cfgAt s snap) recs) recs req
    let s := cers.foldl (fun s n => modCer s n fun c => { c with state := .carriedOut, reservedBy := none }) s
    ({ csn := some n }, s)

/-- A record that Cox commits on its own (07, "Configuration records"): the checks of R270 items 6 and 7, then `JCOMMIT`.
Its status leaves the module. Nothing happens while the key store is closed (R404) or the unit does not serve. -/
def commitConf (s : State) (r : ConfRec) : State :=
  if kscOn s = false ∨ serves s = false then s
  else
    let st := checkRecord s (cfgV s) r
    if st ≠ 0 then
      emit (match r with
        | .imageLoad _ i _ _ => if st = St.imageRejected then alarmEvent s 26 i else s
        | _ => s) (.txStatus st 0)
    else if quorumOk s r = false then emit s (.txStatus St.quorumRequired 0)
    else
      let cers := (authorising s r).toList.map (·.number)
      let (c, s) := tryCommit s s.ksc.v [.conf r] cers none
      emit (countStatus s none c.status) (.txStatus c.status (c.csn.getD 0))

/-- DOMAIN_CREATE (R319). -/
def execDomainCreate (d : Nat) (s : State) : Host.Outcome State Fault Refusal := .next (commitConf s (.domainCreate d))

/-- DOMAIN_DELETE (R320, R321). -/
def execDomainDelete (d : Nat) (s : State) : Host.Outcome State Fault Refusal := .next (commitConf s (.domainDelete d))

/-- INSTANCE_CREATE (R322). -/
def execInstanceCreate (i d : Nat) (sh : Share) (s : State) : Host.Outcome State Fault Refusal :=
  .next (commitConf s (.instCreate i d sh))

/-- INSTANCE_DELETE (R337). -/
def execInstanceDelete (i : Nat) (s : State) : Host.Outcome State Fault Refusal := .next (commitConf s (.instDelete i))

/-- ADMINISTRATIVE_STATE (R338). -/
def execAdministrativeState (i : Nat) (enable : Bool) (s : State) : Host.Outcome State Fault Refusal :=
  .next (commitConf s (.adminState i enable))

/-- SHARE_CHANGE (R323, R327). -/
def execShareChange (i : Nat) (sh : Share) (s : State) : Host.Outcome State Fault Refusal :=
  .next (commitConf s (.shareChange i sh))

/-- QUEUE_CONFIGURE (R329, R330). -/
def execQueueConfigure (q : Nat) (b : QBlock) (s : State) : Host.Outcome State Fault Refusal :=
  .next (commitConf s (.queueConfigure q b))

/-- QUEUE_REMOVE (R336). -/
def execQueueRemove (q : Nat) (s : State) : Host.Outcome State Fault Refusal := .next (commitConf s (.queueRemove q))

/-- OFFICER_SET (R405, R410). -/
def execOfficerSet (scope : Nat) (l : List Officer) (s : State) : Host.Outcome State Fault Refusal :=
  .next (commitConf s (.officerSet scope l))

/-- POLICY (R408). -/
def execPolicy (scope : Nat) (l : List PolicyEntry) (s : State) : Host.Outcome State Fault Refusal :=
  .next (commitConf s (.policy scope l))

/-- DOMAIN_SETTINGS (R409). -/
def execDomainSettings (scope : Nat) (x : Settings) (s : State) : Host.Outcome State Fault Refusal :=
  .next (commitConf s (.settings scope x))

/-- USAGE_POLICY_ENTRY (R412). -/
def execUsagePolicyEntry (scope : Nat) (u : Usage) (s : State) : Host.Outcome State Fault Refusal :=
  .next (commitConf s (.usage scope u))

/-- IMAGE_LOAD (R144, R146). -/
def execImageLoad (d image version : Nat) (digest : List Byte) (s : State) : Host.Outcome State Fault Refusal :=
  .next (commitConf s (.imageLoad d image version digest))

/-- IMAGE_UNLOAD (R150). -/
def execImageUnload (d image version : Nat) (s : State) : Host.Outcome State Fault Refusal :=
  .next (commitConf s (.imageUnload d image version))

/-- BIND (R147, R148). -/
def execBind (d q image version : Nat) (s : State) : Host.Outcome State Fault Refusal :=
  .next (commitConf s (.bind d q image version))

/-- UNBIND (R147). -/
def execUnbind (d q : Nat) (s : State) : Host.Outcome State Fault Refusal := .next (commitConf s (.unbind d q))

/-- RAISE_VERSION_FLOOR (R148). -/
def execRaiseVersionFloor (d image floor : Nat) (s : State) : Host.Outcome State Fault Refusal :=
  .next (commitConf s (.raiseFloor d image floor))

/-- Profile record (R782): the class 6 ceremony that names it authorises it. -/
def execProfileRecord (p : ProfileRec) (s : State) : Host.Outcome State Fault Refusal := .next (commitConf s (.profile p))

/-! ### Durability and visibility -/

/-- Commits above CSN `n`, in CSN order. -/
def commitsAbove (s : State) (n : Nat) : List Commit := s.ksc.commits.filter fun m => decide (n < m.csn)

/-- The commit is durable here: both dies hold its block (R393). -/
def becomeDurable (s : State) (m : Commit) : State :=
  let s := { s with ksc := { s.ksc with
    durable := m.csn
    tuples := (s.ksc.tuples.filter fun t => decide (now s < t.2.2.2 + 60 * tickS)) ++
      m.requester.toList.map fun r => (r, m.csn, m.single, now s) } }
  if roleOf s = .standby ∨ roleOf s = .joining then sendPlp s 3 [m.csn] else s

/-- Whether the next program that finishes is die 1's: the other die has none running, or both have and which is first is free
(log 115). -/
def dieReports (s : State) : Bool :=
  if commitsAbove s s.ksc.die0 = [] then true
  else if commitsAbove s s.ksc.die1 = [] then false
  else Config.dieOneFirst s.free

/-- COMMIT_DURABLE (R393, R395): one die reports the program of its next commit block; the commit is durable once both dies
have reported it, and a standby then acknowledges it (R634). -/
def execCommitDurable (s : State) : Host.Outcome State Fault Refusal :=
  let die := dieReports s
  .next <| match commitsAbove s (if die then s.ksc.die1 else s.ksc.die0) with
  | [] => s
  | m :: _ =>
    if s.pwr.mainPower = false ∧ s.pwr.downRunning = false then s
    else
      let k := if die then { s.ksc with die1 := m.csn } else { s.ksc with die0 := m.csn }
      let s := { s with ksc := k, free := s.free + 1 }
      if m.csn ≤ s.ksc.die0 ∧ m.csn ≤ s.ksc.die1 ∧ s.ksc.durable < m.csn then becomeDurable s m else s

/-- The next commit may become visible (R52, R55, R57, R58, R811): durable here and, where a standby is joined, on the
standby; a standby follows the serving unit (log 23). -/
def mayAdvance (s : State) (m : Commit) : Bool :=
  decide (m.csn ≤ s.ksc.durable) && !s.prl.pendingSolo &&
    (match roleOf s with
      | .active => !s.prl.joined || decide (m.csn ≤ s.prl.peerDur)
      | .single => true
      | .standby => decide (m.csn ≤ s.prl.peerV)
      | _ => false)

/-- COMMIT_VISIBLE (R52). -/
def execCommitVisible (s : State) : Host.Outcome State Fault Refusal :=
  .next <| match commitsAbove s s.ksc.v with
  | [] => s
  | m :: _ => if mayAdvance s m then makeVisible s m else s

/-- CSN up to which no chain, held reply, retention entry or sample still needs the journal (R375). -/
def trimLimit (s : State) : Nat :=
  let need := (liveChains s).map (·.snap)
    ++ (liveChains s).filterMap (fun x => x.committed.map (· - 1))
    ++ s.net.held.map (fun h => h.csn - 1)
    ++ s.net.retention.filterMap (fun r => r.orphan.map fun o => o.1 - 1)
    ++ s.prl.samples.map (·.snap) ++ s.prl.arbitrations.map (·.sample.snap)
  need.foldl min (min s.ksc.durable s.ksc.v)

/-- Write the key records that a record of a commit changes (R367 to R369, R379): each write takes the next write sequence. A
new key's records are written whole, and the copy in the journal is superseded; a change of attributes or of `ctr_base` writes
record 0 again, which supersedes its copy; a delete leaves every copy to be erased. -/
def writeRecords (csn : Nat) (s : State) (r : Rec) : State :=
  let first := fun (s : State) (n : KeyName) => match alGet s.ksc.recWseq n with
    | some (w :: l) =>
      let s := scheduleErase s n [Config.copyBlock w]
      { s with ksc := { s.ksc with wseq := s.ksc.wseq + 1, recWseq := alSet s.ksc.recWseq n ((s.ksc.wseq + 1) :: l) } }
    | _ => s
  let drop := fun (s : State) (n : KeyName) =>
    let s := scheduleErase s n (((alGet s.ksc.recWseq n).getD []).map Config.copyBlock)
    { s with ksc := { s.ksc with recWseq := alDel s.ksc.recWseq n } }
  match r with
  | .keyCreate k =>
    let n := recordsOf k.attrs.alg k.attrs.size
    let s := scheduleErase s k.name ((alGet s.ksc.blockWseq csn).map Config.copyBlock).toList
    { s with ksc := { s.ksc with
        wseq := s.ksc.wseq + n
        recWseq := alSet s.ksc.recWseq k.name ((List.range n).map fun i => s.ksc.wseq + 1 + i) } }
  | .keyAttrs n _ | .reserve n _ => first s n
  | .keyDelete n => drop s n
  | .conf (.domainDelete d) => ((s.ksc.recWseq.map (·.1)).filter fun n => n.dom == d).foldl drop s
  | .conf _ => s

/-- RECORD_AREA_APPLY (R396): the journal is trimmed up to the highest CSN that is written and that nothing still needs. -/
def execRecordAreaApply (s : State) : Host.Outcome State Fault Refusal :=
  .next <|
    let n := trimLimit s
    let go := s.ksc.commits.filter fun m => decide (m.csn ≤ n)
    match go.getLast? with
    | none => s
    | some last =>
      let s := go.foldl (fun s m => m.recs.foldl (writeRecords m.csn) s) s
      { s with ksc := { s.ksc with
          base := go.foldl Cfg.applyCommit s.ksc.base
          baseCsn := n
          digest0 := last.digest
          blockWseq := s.ksc.blockWseq.filter fun w => decide (n < w.1)
          commits := s.ksc.commits.filter fun m => decide (n < m.csn) } }

/-! ### Re-masking and erasure -/

/-- Entry `i` of the cache, over all keys. -/
def cacheEntry (l : List Cached) (i : Nat) : Option CacheEntry := (l.flatMap (·.slots))[i]?

/-- Change entry `i`. -/
def modEntry (f : CacheEntry → CacheEntry) : Nat → List Cached → List Cached
  | _, [] => []
  | i, x :: l =>
    if i < x.slots.length then { x with slots := x.slots.modify i f } :: l
    else x :: modEntry f (i - x.slots.length) l

/-- REMASK_VISIT (R381, R382): the sweep comes to entry `i`, which it has not visited in the current period: the mask m gives
way to a fresh one m′ and the entry e to e XOR m XOR m′. Without mask bits it stalls. -/
def execRemaskVisit (i : Nat) (s : State) : Host.Outcome State Fault Refusal :=
  .next <| match cacheEntry s.ksc.cache i with
  | none => s
  | some e =>
    if e.mask = [] ∨ now s / remaskPeriod s ≤ e.masked / remaskPeriod s then s
    else match sysDraw s .ksc 64 with
      | none => sysWait s .ksc
      | some (m, s) =>
        { s with ksc := { s.ksc with cache := modEntry (fun e =>
            { value := xorBytes (xorBytes e.value e.mask) m, mask := m, masked := now s }) i s.ksc.cache } }

/-- A record of severity ALARM whose code no table gives (log 17). -/
def logAlarm (s : State) (block place : Nat) (params : List Nat := []) : State :=
  logFull s (Config.logEvent block place).1 block 4 false 0 params

/-- REMASK_LATE (R382). -/
def execRemaskLate (s : State) : Host.Outcome State Fault Refusal :=
  .next <|
    if s.ksc.cache.any (fun x => x.slots.any fun e => decide (e.masked + 2 * tickS < now s)) && !rbit s 0x00040008 4 then
      logAlarm (setBit s 0x00040008 4) 4 4
    else s

/-- Some live chain can still resolve or use a version of the key (R375, R378). -/
def keyReachable (s : State) (n : KeyName) : Bool :=
  pinned s n || (cfgV s).keys.any (fun k => k.name == n)
    || (liveChains s).any fun x => (cfgAt s x.snap).keys.any fun k => k.name == n

/-- KEY_MATERIAL_OVERWRITE (R378, R510). -/
def execKeyMaterialOverwrite (n : KeyName) (s : State) : Host.Outcome State Fault Refusal :=
  .next <|
    if s.ksc.deleted.contains n && !keyReachable s n then
      let drop := fun e : PoolEngine => { e with cache := e.cache.filter fun c => c.name != n }
      let s := uncache s n
      { s with
        ksc := { s.ksc with deleted := s.ksc.deleted.filter (· != n), counters := alDel s.ksc.counters n }
        lte := { s.lte with engines := s.lte.engines.map drop } }
    else s

/-- A block gives way to a spare (R399, R400): with the last one the store becomes read-only. -/
def retireBlock (s : State) (b : Nat) : State :=
  let n := s.ksc.spares - 1
  let s := { s with ksc := { s.ksc with spares := n, erases := alDel s.ksc.erases b } }
  if n = 0 ∧ s.ksc.readOnly = false then alarmEvent { s with ksc := { s.ksc with readOnly := true } } 28 0 else s

/-- Erases of a block so far. -/
def eraseCount (s : State) (b : Nat) : Nat := (alGet s.ksc.erases b).getD 0

/-- NAND_BLOCK_ERASE (R379, R399): block `b` is erased, and the old copies in it are gone. -/
def execNandBlockErase (b : Nat) (s : State) : Host.Outcome State Fault Refusal :=
  let gone := (s.ksc.erase.filter fun e => e.block == b).map (·.key)
  .next { s with ksc := { s.ksc with
    erase := s.ksc.erase.filter fun e => e.block != b
    recWseq := s.ksc.recWseq.map fun x =>
      if gone.contains x.1 ∧ (keyAtV s x.1).isNone then (x.1, x.2.filter fun w => Config.copyBlock w != b) else x
    erases := alSet s.ksc.erases b (eraseCount s b + 1) } }

/-- The block to retire: one that has reached its rated erases, else one whose program or erase failed (R399, log 115). -/
def wornBlock (s : State) : Nat :=
  match s.ksc.erases.find? fun e => decide (Config.ratedErases e.1 ≤ e.2) with
  | some e => e.1
  | none => Config.failedBlock s.free

/-- NAND_BLOCK_RETIRE (R399, R400). -/
def execNandBlockRetire (s : State) : Host.Outcome State Fault Refusal :=
  .next (retireBlock { s with free := s.free + 1 } (wornBlock s))

/-- DOMAIN_ERASURE_COMPLETE (R321): the domain's records are erased. -/
def execDomainErasureComplete (d : Nat) (s : State) : Host.Outcome State Fault Refusal :=
  .next <| if s.ksc.erase.any (fun e => e.key.dom == d) then s
  else { s with ksc := { s.ksc with erasing := s.ksc.erasing.filter (· != d) } }

end Sys2Proof.Machine
end

