-- ==== Sys2Proof/Machine/Meridian.lean ====
section
/-! DEFINITION. Meridian time (chapter 02): the clock, its uncertainty and servo state, and the commands of this family. The
low-pass filter and the rate choice of the servo, which the spec does not give, are operands (log 14). -/

namespace Sys2Proof.Machine

/-- Ticks of a signed count of ns, rounded toward zero. -/
def ticksOfNs (n : Int) : Int := (n * 2).tdiv 125

/-- `MER_ADRIFT_LIMIT` in force (R80). -/
def adriftLimit (s : State) : Nat := clamp 10000 1000000000 (stored s 0x0001001C).toNat

/-- `MER_ASYM`. -/
def asymNs (s : State) : Nat := (stored s 0x00010020).toNat

/-- The servo is enabled. -/
def servoOn (s : State) : Bool := blockEn s 1 0

/-- Smallest number whose square reaches `n`, by search downwards from `fuel`. -/
def sqrtUp (n : Nat) : Nat := let r := n.sqrt; if r * r < n then r + 1 else r

/-- RMS of the last filtered offsets in ns, rounded up (R76). Fewer than 16 are averaged over as many as there are, and none
give 0 (log 97). -/
def rmsNs (l : List Int) : Nat :=
  if l.isEmpty then 0 else sqrtUp (ceilDiv (l.foldl (fun n x => n + x.natAbs * x.natAbs) 0) l.length)

/-- u while a source is qualified (R76). -/
def qualifiedUnc (s : State) : Nat :=
  (if s.mer.ppsGood then (stored s 0x00010024).toNat else asymNs s) + 3 * rmsNs s.mer.offsets + 16
    + ceilDiv s.mer.offset.natAbs 2

/-- u in holdover and before the initial set (R77), rounded up. -/
def grownUnc (s : State) : Nat :=
  if s.mer.uAnchor = 0xFFFFFFFF then 0xFFFFFFFF else s.mer.uAnchor + ceilDiv (50 * (now s - s.mer.uAt)) tickS

/-- A source is qualified (R72). -/
def sourceQualified (s : State) : Bool := s.mer.qualified && s.mer.gm.isSome && decide (now s < s.mer.lastSync + 4 * tickS)

/-- The condition of rule 3 of Table 2.2 at this tick. -/
def fixNow (s : State) : Bool :=
  s.mer.qualified && decide (s.mer.unc ≤ if s.mer.ppsGood then 100 else 1000)

/-- Servo state at this tick (Table 2.2). -/
def servoState (s : State) : Servo :=
  if s.mer.initialSet = false then .acquiring
  else if adriftLimit s < s.mer.unc then .adrift
  else match s.mer.okSince with
    | some t => if t + 10 * tickS ≤ now s then .fix else .deadReckoning
    | none => .deadReckoning

/-- First whole second after T. -/
def nextWhole (t : Nat) : Nat := (t / tickS + 1) * tickS

/-- Ticks between two sets of the RTC (R105). -/
def rtcPeriod : Nat := 1024 * tickS

/-- The next set of the RTC: one that T has passed unset is skipped (R105, log 97). -/
def rtcDue (t n : Nat) : Nat := if n + 1 < t then n + ceilDiv (t - 1 - n) rtcPeriod * rtcPeriod else n

/-- Code of a servo state (Table 2.2). -/
def Servo.code : Servo → Nat
  | .acquiring => 0 | .fix => 1 | .deadReckoning => 2 | .adrift => 3

/-- Bring u and the servo state up to date (R76 to R79), and schedule the RTC set at entry to FIX (R105). -/
def updateClock (s : State) : State :=
  let q := s.mer.qualified && s.mer.initialSet && servoOn s
  let u := min 0xFFFFFFFF (if q then qualifiedUnc s else grownUnc s)
  let s := { s with mer := { s.mer with
    unc := u
    uAnchor := if q then u else s.mer.uAnchor
    uAt := if q then now s else s.mer.uAt } }
  let s := { s with mer := { s.mer with
    okSince := if fixNow s then some (s.mer.okSince.getD (now s)) else none } }
  let st := servoState s
  { s with mer := { s.mer with
    rtcNext := if st = .fix then (if s.mer.state = .fix then s.mer.rtcNext.map (rtcDue s.mer.t) else some (nextWhole s.mer.t))
      else none
    state := st } }

/-- A pulse is missing once its window has passed (R74). While MPPS is not in use (the servo or `pps_en` off, or no source
qualified, R75, R84) no pulse is missed and `pps_good` keeps its value (log 97). -/
def ppsCheck (s : State) : State :=
  if servoOn s && rbit s 0x00010004 1 && s.mer.qualified &&
      decide (s.mer.ppsAt + tickS + 2 * ceilDiv ((asymNs s + 1000) * 2) 125 ≤ now s) then
    let n := s.mer.ppsMiss + 1
    { s with mer := { s.mer with
      ppsAt := s.mer.ppsAt + tickS, ppsMiss := n, ppsRun := 0, ppsGood := s.mer.ppsGood && decide (n < 4) } }
  else s

/-- The RTC advances by one oscillator tick of 62.5 ns (R722). -/
def rtcTick (s : State) : State :=
  let n := s.bin.rtcAcc + 32768
  { s with bin := { s.bin with
    rtc := if tickS ≤ n then (s.bin.rtc + 1) % 2 ^ 64 else s.bin.rtc
    rtcAcc := if tickS ≤ n then n - tickS else n } }

/-- Operating time follows elapsed time (R767). -/
def optimeTick (s : State) : State :=
  if s.log.optimeAt + tickS ≤ now s then
    { s with log := { s.log with optime := (s.log.optime + 1) % 2 ^ 32, optimeAt := s.log.optimeAt + tickS } }
  else s

/-- MERIDIAN_TICK (R64, R88): one oscillator tick. T advances by one, and by one more or less whenever the rate correction
has added up to a tick. Only the RTC runs without main power. -/
def execMeridianTick (slew : Int) (s : State) : Host.Outcome State Fault Refusal :=
  .next <|
    let s := rtcTick s
    if s.pwr.mainPower = false then s
    else
      let r := if servoOn s then max (-100000) (min 100000 slew) else 0
      let a := s.mer.slewAcc + r
      let n : Int := if 1000000000 ≤ a then 1 else if a ≤ -1000000000 then -1 else 0
      let adv := (1 + n).toNat
      updateClock <| ppsCheck <| optimeTick
        { s with mer := { s.mer with
          slew := r
          slewAcc := a - n * 1000000000
          t := (s.mer.t + adv) % 2 ^ 64
          elapsed := s.mer.elapsed + adv
          offset := s.mer.offset - n * 125 } }

/-! ### Sources -/

/-- A PTP message is discarded and counted. -/
def ptpReject (s : State) : State := { s with mer := { s.mer with ptpRej := satInc 0xFFFFFFFF s.mer.ptpRej } }

/-- A security-association key is present (R71). -/
def saKey (s : State) : Bool :=
  (cfgV s).keys.any fun k => k.name.dom == 0 && bitOf k.attrs.usage uMacVerify && bitOf k.attrs.engines eHsh

/-- Port, transport, domain and authentication of a PTP message (Table 2.1, R70, R71). -/
def ptpOk (s : State) (h : PtpHdr) : Bool :=
  let port := fld s 0x0001000C 0 3
  let tr := fld s 0x0001000C 3 2
  decide (port ≤ 4 ∧ tr ≤ 2 ∧ h.port = port ∧ h.transport = tr ∧ h.domainNo = fld s 0x0001000C 5 7) &&
    (!rbit s 0x00010004 2 || (h.auth && h.spp == fld s 0x0001000C 16 8 && saKey s))

/-- A grandmaster's dataset precedes another's (Table 2.1). -/
def betterClock (a b : Announce) : Bool :=
  let k := fun x : Announce => [x.prio1, x.clockClass, x.accuracy, x.variance, x.prio2, x.identity, x.stepsRemoved]
  match ((k a).zip (k b)).find? fun p => p.1 != p.2 with
  | some p => decide (p.1 < p.2)
  | none => false

/-- The initial set (R85). A unit that serves publishes no T below the last one that its peer mirrored (R100): what T then
leads the source by remains as Δ. -/
def initialSetTo (s : State) (src : Nat) : State :=
  let t := if roleOf s = .active ∨ roleOf s = .single then max src s.prl.peerTime else src
  { s with mer := { s.mer with
    t := t % 2 ^ 64
    initialSet := true, acqConflict := false, offset := ((src : Int) - t) * 125, slewAcc := 0 } }

/-- Source time at this tick for a measured offset. -/
def sourceAt (s : State) (d : Int) : Nat := (s.mer.t + ticksOfNs d).toNat

/-- The source time lies within the seed's interval (R85): u_seed itself does not saturate, and there is none where the RTC
was not valid at start. -/
def seedHolds (s : State) (src : Nat) : Bool := match s.mer.uSeed with
  | some u => let w := ceilDiv (u * 2) 125 + tickS
    decide (s.mer.t ≤ src + w ∧ src ≤ s.mer.t + w)
  | none => false

/-- Before the initial set: at a qualification the source time is checked against the seed (R85, R86). -/
def acquire (s : State) (d : Int) (first : Bool) : State :=
  let src := sourceAt s d
  let s := { s with mer := { s.mer with offset := 2 * d } }
  if first = false then s
  else if seedHolds s src then initialSetTo s src
  else { s with mer := { s.mer with acqConflict := true } }

/-- A measured offset Δ in ns (R89 to R91). -/
def measured (s : State) (d : Int) : State :=
  let s := { s with mer := { s.mer with offset := 2 * d } }
  if d ≤ 1000000 then { s with mer := { s.mer with stepPending := false, stepTicks := 0, pendingStep := none } }
  else if d ≤ 1000000000 then
    { s with mer := { s.mer with
      stepPending := false, stepTicks := 0, pendingStep := some (ticksOfNs d).toNat } }
  else { s with mer := { s.mer with stepPending := true, stepTicks := (ticksOfNs d).toNat, pendingStep := none } }

/-- A Sync from the grandmaster is complete: `origin` and `rx` are its origin and receive times in ns. -/
def acceptSync (s : State) (origin rx : Nat) (filtered : Int) : State :=
  let d : Int := (origin : Int) + s.mer.pathDelay - rx
  let first := !s.mer.qualified
  let s := { s with mer := { s.mer with
    qualified := true
    lastSync := now s
    ppsAt := if first then now s else s.mer.ppsAt
    offsets := (s.mer.offsets ++ [filtered]).drop ((s.mer.offsets.length + 1) - 16)
    sync := none } }
  updateClock (if s.mer.initialSet then measured s d else acquire s d first)

/-- The message comes from the selected grandmaster. -/
def fromGm (s : State) (h : PtpHdr) : Bool := (s.mer.gm.map (·.identity)) == some h.source

/-- T now in units of 1/256 tick (R580): an event between two ticks is taken at the tick (log 32). -/
def fineNow (s : State) : Nat := 256 * s.mer.t

/-- Nanoseconds of a timestamp in 1/256 tick. -/
def nsOfStamp (n : Nat) : Nat := n * 125 / 512

/-- A PTP event message whose start-of-frame delimiter ended `lead` 1/256 ticks ago is stamped at its port (R580, R581),
before any check of it. -/
def stampRx (s : State) (port lead : Nat) : State := modPort s port fun p => { p with tsRx := (fineNow s - lead) % 2 ^ 64 }

/-- The Delay_Req that follows a Sync leaves and is stamped (R581, log 32). -/
def sendDelayReq (s : State) (port : Nat) : State :=
  modPort (emit s (.delayReq port)) port fun p => { p with tsTx := fineNow s % 2 ^ 64 }

/-- Path delay of a whole exchange: half of what the two one-way times add up to (IEEE 1588 end to end, Table 2.1). -/
def Exchange.delay (x : Exchange) : Option Nat := match x.origin, x.received with
  | some o, some r => some ((((nsOfStamp x.rx : Int) - o) + ((r : Int) - nsOfStamp x.tx)).toNat / 2)
  | _, _ => none

/-- An exchange takes up what has arrived of it, and measures the path delay once it is whole. -/
def noteExchange (s : State) (f : Exchange → Exchange) : State := match s.mer.exchange.map f with
  | none => s
  | some x => match x.delay with
    | some d => { s with mer := { s.mer with exchange := none, pathDelay := d } }
    | none => { s with mer := { s.mer with exchange := some x } }

/-- PTP_SYNC (Table 2.1, R72, R85 to R91): its start-of-frame delimiter ended `lead` 1/256 ticks ago. -/
def execPtpSync (h : PtpHdr) (logInterval : Int) (twoStep : Bool) (seq origin lead : Nat) (filtered : Int) (s : State) :
    Host.Outcome State Fault Refusal :=
  .next <|
    let at_ := fineNow s - lead
    let s := stampRx s h.port lead
    if (ptpOk s h && decide (-7 ≤ logInterval ∧ logInterval ≤ 0)) = false then ptpReject s
    else if servoOn s = false ∨ fromGm s h = false then s
    else
      let rx := nsOfStamp at_
      let s := { s with mer := { s.mer with
        exchange := some { rx := at_, tx := fineNow s, origin := if twoStep then none else some origin } } }
      let s := sendDelayReq s h.port
      if twoStep then { s with mer := { s.mer with sync := some (seq, rx) } } else acceptSync s origin rx filtered

/-- PTP_FOLLOW_UP (Table 2.1). -/
def execPtpFollowUp (h : PtpHdr) (seq origin : Nat) (filtered : Int) (s : State) : Host.Outcome State Fault Refusal :=
  .next <|
    if ptpOk s h = false then ptpReject s
    else if servoOn s = false then s
    else match s.mer.sync with
      | some (n, rx) =>
        if n = seq ∧ fromGm s h = true then
          acceptSync (noteExchange s fun x => { x with origin := some origin }) origin rx filtered
        else s
      | none => s

/-- PTP_ANNOUNCE: dataset comparison (Table 2.1). -/
def execPtpAnnounce (h : PtpHdr) (a : Announce) (s : State) : Host.Outcome State Fault Refusal :=
  .next <|
    if ptpOk s h = false then ptpReject s
    else if servoOn s = false then s
    else match s.mer.gm with
      | some g =>
        if g.identity = a.identity then { s with mer := { s.mer with gm := some a, gmAt := now s } }
        else if betterClock a g then
          updateClock { s with mer := { s.mer with gm := some a, gmAt := now s, qualified := false, sync := none, exchange := none } }
        else s
      | none => { s with mer := { s.mer with gm := some a, gmAt := now s } }

/-- PTP_DELAY_RESP: the grandmaster received the Delay_Req at `received` ns (Table 2.1). -/
def execPtpDelayResp (h : PtpHdr) (received : Nat) (s : State) : Host.Outcome State Fault Refusal :=
  .next <|
    if ptpOk s h = false then ptpReject s
    else if servoOn s = false then s
    else if fromGm s h then noteExchange s fun x => { x with received := some received } else s

/-- PTP_OTHER_MESSAGE: Management, Signaling and Pdelay messages are discarded and counted (Table 2.1). A Pdelay event
message is stamped like every other (R581). -/
def execPtpOtherMessage (h : PtpHdr) (s : State) : Host.Outcome State Fault Refusal :=
  .next <| ptpReject <| match h.event with
    | some lead => stampRx s h.port lead
    | none => s

/-- ANNOUNCE_RECEIPT_TIMEOUT: three announce intervals without an Announce (Table 2.1). -/
def execAnnounceReceiptTimeout (s : State) : Host.Outcome State Fault Refusal :=
  .next <| match s.mer.gm with
  | some g =>
    if s.mer.gmAt + 3 * g.interval ≤ now s then
      updateClock { s with mer := { s.mer with gm := none, qualified := false, sync := none, exchange := none } }
    else s
  | none => s

/-- SOURCE_QUALIFICATION_LOSS (R72): no Sync for 4 s. -/
def execSourceQualificationLoss (s : State) : Host.Outcome State Fault Refusal :=
  .next <| if s.mer.qualified = true ∧ sourceQualified s = false then
    updateClock { s with mer := { s.mer with qualified := false, sync := none } }
  else s

/-- MPPS_EDGE (R73 to R75). -/
def execMppsEdge (offsetNs : Int) (s : State) : Host.Outcome State Fault Refusal :=
  .next <|
    if servoOn s = false ∨ rbit s 0x00010004 1 = false ∨ s.mer.qualified = false then s
    else if offsetNs.natAbs ≤ asymNs s + 1000 then
      let n := s.mer.ppsRun + 1
      updateClock { s with mer := { s.mer with
        ppsRun := n, ppsMiss := 0, ppsAt := now s, ppsGood := s.mer.ppsGood || decide (16 ≤ n) } }
    else
      let n := s.mer.ppsMiss + 1
      updateClock { s with mer := { s.mer with
        ppsRun := 0, ppsMiss := n, ppsAt := now s, ppsGood := s.mer.ppsGood && decide (n < 4)
        ppsRej := satInc 0xFFFFFFFF s.mer.ppsRej } }

/-- T moves forward by `n` ticks between two ticks; `cer` says that a class 8 ceremony named the step (R90, R92, R93). No
elapsed time moves (R98). -/
def stepBy (s : State) (n : Nat) (cer : Bool) : State :=
  let s := { s with mer := { s.mer with
    t := (s.mer.t + n) % 2 ^ 64
    offset := s.mer.offset - n * 125
    pendingStep := none, stepPending := false, stepTicks := 0 } }
  updateClock (logEvent s 0x0101 0x01 1 [n % 2 ^ 32, n / 2 ^ 32 % 2 ^ 32, b2n cer])

/-- A ceremony of class 8 is refused at completion (R92, R810). -/
def stepRefused (s : State) (number kind : Nat) : State :=
  let d := (BitVec.ofInt 64 (s.mer.offset.tdiv 125)).toNat
  logEvent (setBit s 0x00010008 9) 0x0102 0x01 2 [d % 2 ^ 32, d / 2 ^ 32, number, kind]

/-- RTC_SET (R105, R106): at the whole second that is due; T may pass two ticks at once (R88). -/
def execRtcSet (s : State) : Host.Outcome State Fault Refusal :=
  .next <| match s.mer.rtcNext with
  | some t =>
    if s.mer.state = .fix ∧ rbit s 0x00010004 3 = true ∧ t ≤ s.mer.t ∧ s.mer.t ≤ t + 1 then
      let v := s.mer.t * 32768 / tickS
      { s with
        bin := { s.bin with rtc := v, rtcAcc := 0, rtcValid := true, rtcSetAt := v }
        mer := { s.mer with rtcNext := some (t + rtcPeriod) } }
    else s
  | none => s

/-- The seed at start (02, "Initial set at start"). -/
def seedClock (s : State) : State :=
  let drift := ceilDiv ((s.bin.rtc - s.bin.rtcSetAt) * 1000000000 * 20) (32768 * 1000000)
  let seed := if s.bin.rtcValid then some (31000 + drift) else none
  let u := min 0xFFFFFFFF (seed.getD 0xFFFFFFFF)
  updateClock { s with mer := { s.mer with
    t := s.bin.rtc * tickS / 32768 % 2 ^ 64, uSeed := seed, unc := u, uAnchor := u, uAt := now s } }

/-- A standby steers to the mirrored time by slewing (R638). -/
def followPeer (s : State) (time unc servo : Nat) (slew : Int) : State :=
  { s with
    mer := { s.mer with offset := ((time : Int) - s.mer.t) * 125 }
    prl := { s.prl with peerTime := time, peerUnc := unc, peerServo := servo, peerSlew := slew } }

/-- A unit that becomes active publishes no T below the last mirrored one (R100). Δ follows T. -/
def takeTime (s : State) : State :=
  let t := max s.mer.t s.prl.peerTime
  { s with mer := { s.mer with t := t, offset := s.mer.offset - ((t : Int) - s.mer.t) * 125 } }

end Sys2Proof.Machine
end

