-- ==== Sys2Proof/Machine/SessTx.lean ====
section
/-! DEFINITION. What the module starts on a session by itself: mirrored anchors (R571), rekeys (R574), resynchronisations
(R607 to R611); and the ends of a role: ceremonies, Drill permits. -/

namespace Sys2Proof.Machine

/-! ### Rekey and resynchronisation -/

/-- Anchor steps, modulo 4: 0 the session is established, 1 what the session awaits under the generation `what / 4`, 2 nothing
more. -/
def anchorDone (s : State) (id what : Nat) : State :=
  match what % 4 with
  | 0 =>
    if (findSess s id).any fun x => x.state != .closing then
      flush (sendFrame (modSess s id fun x => { x with anchored := true }) id 5 0 []) id
    else flush (modSess s id fun x => { x with anchored := true }) id
  | 1 => flush (modSess s id fun x =>
      { x with mirrored := x.mirrored || match x.awaits with
          | some (.rekey _) => what / 4 == x.gen + 1
          | some (.resync _) => what / 4 == x.gen
          | none => false }) id
  | _ => s

/-- Content of an ANCHOR (Table 16.5): session, port, domain, home instance, generation, direction keys and IVs, S_g and the
switch sequences. `what` says what the module does once it is mirrored, and stays in the module. -/
def anchorContent (x : Session) (what : Nat) : List Nat :=
  x.id :: what :: (leBytes 1 x.port ++ leBytes 2 x.dom ++ leBytes 2 x.home ++ leBytes 4 x.gen ++ directionKeys x.sg ++ x.sg
    ++ leBytes 8 (x.rxSwitch.getD 0) ++ leBytes 8 (x.txSwitch.getD 0)).map (·.toNat)

/-- Mirror the anchor that `x` describes of session `id`, and go on once it is mirrored; at once where no standby is joined
(R571, R574, R611). -/
def sendAnchor (s : State) (id what : Nat) (x : Session) : State :=
  let what := what + 4 * x.gen
  if s.prl.joined then sendPlp s 4 (anchorContent x what) else anchorDone s id what

/-- A rekey starts (R574): the anchor of generation g + 1 is mirrored before REKEY leaves. It names a sequence far enough ahead
that frames go on leaving under g meanwhile (log 33). -/
def startRekey (s : State) (x : Session) : State :=
  let sw := x.txSeq + 1089
  let next := { x with gen := x.gen + 1, sg := nextSecret x.sg (x.gen + 1), txSwitch := some sw, rxSwitch := none }
  sendAnchor (modSess s x.id fun x => { x with awaits := some (.rekey sw), mirrored := false }) x.id 1 next

/-- A PLP frame of the module has been acknowledged: an anchor or a retention entry is mirrored (R571, R600). -/
def mirrorDone (s : State) (f : Nat × Nat × List Nat) : State :=
  match f.2 with
  | (4, id :: what :: _) => anchorDone s id what
  | (5, sess :: req :: 1 :: _) => releaseHeld (modRet s sess req fun e => { e with mirrored := true })
  | _ => s

/-- RESYNC with cause 0 on a session that this unit takes over, or serves again after a full memory rebuild with its path
still on-die (R608, R609, R677). -/
def startResync (keepPath : Bool) (s : State) (id : Nat) : State :=
  match findSess s id with
  | none => s
  | some x =>
    let b := x.txSwitch.getD 0 + 2 ^ 48
    let p := Config.mirroredPath id
    let s := modSess s id fun x =>
      { withGen x (x.gen + 1) (nextSecret x.sg (x.gen + 1)) none with
        keys := x.keys ++ [(x.gen + 1, directionKeys (nextSecret x.sg (x.gen + 1)))]
        state := .resyncing, txSeq := b, txSwitch := some b, rxSwitch := none
        genTx := 0, genRx := 0, unacked := [], again := [], outq := [], segs := [], rxCum := 0, rxSet := [], peerSet := []
        anchored := true, awaits := none, mirrored := false, lastRx := now s, ackedAt := now s, genStart := now s
        pathSeq := none
        path := if keepPath then x.path else { v6 := p.1, ip := p.2.1, udp := p.2.2.1, vlan := p.2.2.2 } }
    sendFrame s id 9 0 (resyncBody (x.gen + 1) 0 0)

/-- Mirrored sessions in the order of step K3 (Table 16.9). -/
def resyncOrder (s : State) : List Nat :=
  let c := cfgV s
  let own := s.net.sessions.filter fun x => x.port < 4 && x.live
  let c0 := fun x : Session => decide (0 < ((c.share x.home).map (·.c0Rate)).getD 0)
  sortAsc ((own.filter c0).map (·.id)) ++ sortAsc ((own.filter fun x => !c0 x).map (·.id))

/-! ### Ends of a role -/

/-- The pair role changes (Table 16.2): ceremonies are cancelled and a Drill permit ends (R420, R779). -/
def setRole (s : State) (r : PairState) : State :=
  if roleOf s = r then s
  else
    let s := endPermits (cancelCers s fun _ => true)
    if s.prl.state = .divergent then { s with prl := { s.prl with role := r } }
    else if s.prl.divAll || !s.prl.divList.isEmpty then { s with prl := { s.prl with state := .divergent, role := r } }
    else { s with prl := { s.prl with state := r } }

end Sys2Proof.Machine
end

