-- ==== Sys2Proof/Machine/Pair.lean ====
section
/-! DEFINITION. Pair operation (chapter 16): roles and the fence, the Pair Link Protocol, joining, output comparison,
takeover and hand-back, and the commands of this family. -/

namespace Sys2Proof.Machine

/-- Change the pair block. -/
def modPrl (s : State) (f : Prl → Prl) : State := { s with prl := f s.prl }

/-- Code of a pair state (Table 16.2). -/
def PairState.code : PairState → Nat
  | .undecided => 0 | .active => 1 | .standby => 2 | .single => 3 | .isolated => 4 | .divergent => 5 | .joining => 6

/-- Failure codes of PAIR_JOIN (Table 19.2). -/
def fcUndecided : Nat := 0x0801
def fcConflict : Nat := 0x0802
def fcRetired : Nat := 0x0803

/-! ### Entering a role -/

/-- Binnacle draws the loop and mesh seeds (R699). -/
def drawSeeds (s : State) : State :=
  match sysDraw s .unit 48 with
  | some (b, t) => { t with bin := { t.bin with seeds := b } }
  | none => s

/-- A Throttle of the start takes effect where its condition still holds (R713). -/
def startThrottle (s : State) : State :=
  let l := s.bin.throttle.filter fun n => (sourceOf s n).active
  let s := { s with bin := { s.bin with throttle := l } }
  if l.isEmpty || s.pwr.forced then s
  else applyProfile { s with pwr := { s.pwr with forced := true, unforceAt := none } } 2 true

/-- Entry to SERVICE (R356, R583, R696, R699, R713, R743): Cox sets `en` of INS and of the host ports, and may raise the
rollback floor. -/
def enterService (s : State) : State :=
  if s.lcf.stage = 9 then s
  else
    let s := startThrottle (drawSeeds { s with bin := { s.bin with firstPower := false } })
    let s := setBit s 0x00030004 0
    let s := (upTo 0 (s.variant.hostPorts - 1)).foldl (fun s p => setBit s (hptAddr p 4) 0) s
    let fw := if s.lcf.slotB then s.lcf.slotBFw else s.lcf.slotAFw
    { s with
      lcf := { s.lcf with
        stage := 9
        floor := if fw.raiseFloor then max s.lcf.floor fw.secVersion else s.lcf.floor }
      pwr := { s.pwr with starting := false } }

/-- A unit that becomes active continues from its own highest durable CSN: what is durable is visible, what is not is gone
(R61), and no counter value of a persisted key is used before a new reservation (R390). The one unit that holds a key that is
not persisted goes on with its counter (R816). -/
def ownHistory (s : State) : State :=
  let s := advanceV s s.ksc.durable
  { s with ksc := { s.ksc with
    commits := s.ksc.commits.filter fun m => decide (m.csn ≤ s.ksc.durable)
    die0 := s.ksc.durable, die1 := s.ksc.durable
    counters := s.ksc.counters.filter fun c => c.1.idx == 0 } }

/-- The unit serves as SINGLE (R620, R630); it publishes no T below the last that its peer mirrored (R100). One that serves
already goes on with its counters and its fence (R625). A unit of a pair writes `solo` before it releases a commit, and one
that was JOINING has completed it (R629). -/
def serveSingle (s : State) : State :=
  let was := serves s
  let s := if was then s else ownHistory s
  let s := takeTime (enterService (setRole s .single))
  let s := modPrl s fun p =>
    { p with
      fence := !was || p.fence, joined := false, peerJoining := false, joinSent := false, yielding := false, failover := false
      renounced := was && p.renounced, pendingSolo := p.paired && !p.solo }
  setService s true

/-- The unit enters JOINING (Table 16.3, R651): fence and `service` are down. -/
def enterJoining (s : State) : State :=
  let s := dropFence (setRole s .joining)
  modPrl s fun p => { p with
    joined := false, peerJoining := false, joinSent := false, epochKnown := false, joinStart := now s, handbackAt := none
    yielding := false, failover := false, peerYield := false }

/-- Chain digest at a CSN, where the unit still holds it (R635). -/
def digestAt (s : State) (n : Nat) : Option (List Byte) :=
  if n = 0 then some (zeros 16)
  else if n = s.ksc.baseCsn then some s.ksc.digest0
  else (s.ksc.commits.find? fun m => m.csn == n).map (·.digest)

/-- A JOINING unit in SERVICE that hears a serving peer sends JOIN (R630, R639). -/
def sendJoin (s : State) : State :=
  if s.prl.joinSent then s
  else
    let s := sendPlp s 10 (s.ksc.durable :: ((digestAt s s.ksc.durable).getD []).map (·.toNat))
    modPrl s fun p => { p with joinSent := true }

/-! ### Losing the peer (Table 16.3) -/

/-- The ACTIVE unit becomes SINGLE; commits and replies wait until `solo` is durable (R58, R629). -/
def goSingle (s : State) : State :=
  modPrl (setRole s .single) fun p =>
    { p with joined := false, peerJoining := false, pendingSolo := true, handbackAt := none, samples := [], arbitrations := [] }

/-- The standby renounces: `renounced` is being written, and the fence falls once it is durable (R629). -/
def renounce (s : State) : State := modPrl s fun p => { p with pendingRenounce := true }

/-- Entries that still lack their reply will answer with their commit (R637): they stand in the table already. Step K1 of
Table 16.9. Which instances were FAULTED on the peer no message has told: it is free (R344, log 106). -/
def takeover (s : State) : State :=
  let s := ownHistory s
  let faulted := ((cfgV s).insts.map (·.1)).filter (Config.peerFaulted s.free)
  let s := takeTime (restartInsts (setRole { s with free := s.free + 1 } .single) faulted)
  modPrl s fun p => { p with
    failover := true, joined := false, peerJoining := false, pendingSolo := true, unacked := [], handbackAt := none
    samples := [], arbitrations := [], takeovers := satInc 255 p.takeovers }

/-- Role decisions of Table 16.3 on the current link, peer and PAIR_ALIVE_IN. -/
def decideRole (s : State) : State :=
  let lost := !s.prl.linkUp
  let gone := (lost || s.prl.peerYield) && !s.prl.aliveIn
  match roleOf s with
  | .standby =>
    if s.prl.pendingRenounce then s
    else if gone then takeover s
    else if lost then renounce s else s
  | .active => if gone then goSingle s else s
  | _ => s

/-- Steps K2 to K4 of Table 16.9: `service`, announcements and RESYNC on every mirrored session. -/
def finishTakeover (s : State) : State :=
  let s := setService s true
  let s := (resyncOrder s).foldl (startResync false) s
  modPrl s fun p => { p with failover := false }

/-- SOLO_DURABLE (R629): `solo` or `renounced` is durable on both dies. -/
def execSoloDurable (s : State) : Host.Outcome State Fault Refusal :=
  .next <|
    if s.prl.pendingRenounce then
      let s := setRole (dropFence s) .isolated
      modPrl s fun p => { p with
        pendingRenounce := false, renounced := true, unacked := [], samples := [], arbitrations := [], epochKnown := false }
    else if s.prl.pendingSolo then
      let waiting := s.prl.unacked
      let s := modPrl s fun p =>
        { p with pendingSolo := false, solo := true, unacked := if p.peerJoining then p.unacked else [] }
      if s.prl.failover then finishTakeover s else releaseHeld (waiting.foldl mirrorDone s)
    else s

/-! ### The Pair Link Protocol, receiving -/

/-- Acknowledge the module's frames below `ack`; frames that the window of R633 now admits leave. -/
def plpAck (s : State) (ack : Nat) : State :=
  let gone := s.prl.unacked.filter fun f => f.1 < ack
  if gone.isEmpty then s
  else
    let rest := s.prl.unacked.filter fun f => ack ≤ f.1
    let fresh := (rest.take plpLimit).drop (plpLimit - gone.length)
    let s := modPrl s fun p => { p with unacked := rest, ackAt := now s }
    let s := fresh.foldl (fun s f => drillTx s 4 none (.plp f.2.1 f.1 f.2.2)) s
    gone.foldl mirrorDone s

/-- The joining unit learns that it is joined: it enters the next epoch and becomes STANDBY (R632, R641). -/
def becomeStandby (s : State) (epoch : Nat) : State :=
  let s := setRole s .standby
  modPrl s fun p =>
    { p with
      epoch := epoch, txSeq := 0, rxSeq := 0, unacked := [], fence := true, renounced := false, solo := false
      standbySince := now s, joins := satInc 255 p.joins, joinSent := false }

/-- A JOINING unit takes the epoch and sequence of the first frame it hears (log 29). -/
def adoptEpoch (s : State) (p : Plp) : State :=
  modPrl s fun q => { q with epoch := p.epoch, rxSeq := p.seq, epochKnown := true }

/-- The unit is listening without a joined peer. -/
def unjoined (s : State) : Bool :=
  match roleOf s with
  | .active | .standby => false
  | _ => true

/-- Receive checks (R633) and what every accepted frame brings (R627, R812): true where the frame is accepted. `join` says
that the message is JOIN, which is taken whatever its epoch (log 29). A frame whose reserved bytes are not zero is discarded:
no message of the link answers one (R14, log 117). -/
def plpAccept (s : State) (p : Plp) (join : Bool) : Bool × State :=
  if s.prl.paired = false ∨ s.pwr.mainPower = false then (false, s)
  else if p.crcOk = false then (false, modPrl s fun q => { q with crcFail := satInc 65535 q.crcFail })
  else if p.tagOk = false then (false, modPrl s fun q => { q with tagFail := satInc 65535 q.tagFail })
  else if p.rsvd ≠ 0 then (false, s)
  else
    let s := if (unjoined s && !s.prl.epochKnown) || (join && unjoined s) then adoptEpoch s p
      else if roleOf s = .joining ∧ p.epoch = s.prl.epoch + 1 ∧ p.seq = 0 then becomeStandby s p.epoch
      else s
    if p.epoch ≠ s.prl.epoch then (false, modPrl s fun q => { q with tagFail := satInc 65535 q.tagFail })
    else if p.seq ≠ s.prl.rxSeq then (false, s)
    else
      let s := modPrl s fun q =>
        { q with rxSeq := q.rxSeq + 1, lastRx := now s, linkUp := true, peerYield := !p.alive }
      let s := plpAck s p.ack
      let s := if roleOf s == .isolated then enterJoining s else s
      (true, if roleOf s = .isolated then s else decideRole s)

/-- COMMIT and CATCHUP bring commits, which wait while the key store's `en` is 0: the frame is not accepted, and its sender
sends it again (R404, R633; log 117). -/
def PlpMsg.commits : PlpMsg → Bool
  | .commit _ | .catchup _ _ => true
  | _ => false

/-- Process an accepted message. -/
def plpTake (s : State) (p : Plp) (f : State → State) (join : Bool := false) : State :=
  let (ok, s) := plpAccept s p join
  if ok then f s else s

/-! ### Divergence (R646) -/

/-- Same image. -/
def sameImage (a b : DivEntry) : Bool := a.dom == b.dom && a.image == b.image && a.version == b.version

/-- Add an image-wide entry, replacing the image's single entries. -/
def addWide (l : List DivEntry) (e : DivEntry) : List DivEntry :=
  (l.filter fun x => !sameImage x e) ++ [{ e with entry := 0xFFFF }]

/-- Merge the single entries of each image that has more than one. -/
def mergeSingles (l : List DivEntry) : List DivEntry :=
  l.foldl (fun acc e => if 1 < (l.filter fun x => sameImage x e && x.entry != 0xFFFF).length then addWide acc e else acc) l

/-- Add an entry; more than 16 even after merging sets `div_all`. -/
def addDiv (p : Prl) (e : DivEntry) (wide : Bool) : Prl :=
  let covered := p.divList.any fun x => sameImage x e && (x.entry == 0xFFFF || x.entry == e.entry)
  let l := if wide then addWide p.divList e else if covered then p.divList else p.divList ++ [e]
  let l := if 16 < l.length then mergeSingles l else l
  if 16 < l.length then { p with divAll := true } else { p with divList := l }

/-- Content of a DIVERGE: `div_all` and the list (R646, Table 16.5). -/
def divContent (s : State) : List Nat :=
  b2n s.prl.divAll :: s.prl.divList.length :: s.prl.divList.flatMap fun e => [e.dom, e.image, e.version, e.entry]

/-- The pair is, or becomes, DIVERGENT for an entry; the list is mirrored on change, and PAIR_DIVERGE fires at entry. -/
def diverge (s : State) (e : DivEntry) : State :=
  let first := s.prl.state ≠ .divergent
  let s := modPrl s fun p => addDiv p e (!first)
  let s := if first then modPrl s fun p => { p with role := p.state, state := .divergent } else s
  let s := sendPlp s 9 (divContent s)
  if first then alarmEvent s 24 s.prl.divList.length else s

/-- DIVERGENT ends (R647). -/
def clearDivergence (s : State) : State :=
  modPrl s fun p =>
    { p with divList := [], divAll := false, state := if p.state = .divergent then p.role else p.state }

/-! ### Output comparison -/

/-- The sample of a request. -/
def isReq (m : Sample) (sess reqId : Nat) : Bool := m.sess == sess && m.reqId == reqId

/-- A verdict on a sample closes it; a mismatch is arbitrated, or finds the queue full (R645). `own` is this unit's first
result. -/
def verdict (s : State) (m : Sample) (matched : Bool) (own : List Byte) : State :=
  let s := modPrl s fun p =>
    { p with
      samples := p.samples.filter fun x => !isReq x m.sess m.reqId
      compared := satInc 0xFFFFFFFF p.compared
      mismatches := if matched then p.mismatches else satInc 65535 p.mismatches }
  if matched then s
  else if 8 ≤ s.prl.arbitrations.length then diverge s m.div
  else modPrl s fun p => { p with arbitrations := p.arbitrations ++ [{ sample := m, own := own }] }

/-- COMPARE_RESULT on a sample of this unit, whose first result the sample holds (R645). -/
def takeVerdict (sess reqId : Nat) (matched : Bool) (s : State) : State :=
  match s.prl.samples.find? (isReq · sess reqId) with
  | some m => verdict s m matched m.digest
  | none => s

/-- An arbitration closes. -/
def closeArb (s : State) (m : Sample) : State :=
  modPrl s fun p => { p with arbitrations := p.arbitrations.filter fun a => !isReq a.sample m.sess m.reqId }

/-- Change an arbitration. -/
def modArb (s : State) (sess reqId : Nat) (f : Arb → Arb) : State :=
  modPrl s fun p => { p with arbitrations := p.arbitrations.map fun a => if isReq a.sample sess reqId then f a else a }

/-- A round of Table 16.8 with both results: this unit's `d` and the peer's `r`. -/
def judgeRound (s : State) (a : Arb) (d : List Byte) (r : ArbMsg) : State :=
  let m := a.sample
  if (a.tests && d == a.own) = false then
    let s := sendPlp (closeArb s m) 12 []
    enterHoldWater (modPrl s fun p => { p with retired := true }) fcRetired
  else if (r.pass && r.same) = false then closeArb s m
  else if d = r.digest then logOpen (closeArb s m) 0x0C 1 [m.div.dom, m.div.image, m.div.version, m.div.entry]
  else if 3 ≤ a.rounds + 1 then diverge (closeArb s m) m.div
  else modArb s m.sess m.reqId fun a => { a with rounds := a.rounds + 1, rerun := none, peer := none }

/-- Judge the current round where both results are there. -/
def judgeArb (s : State) (sess reqId : Nat) : State :=
  match s.prl.arbitrations.find? fun a => isReq a.sample sess reqId with
  | some a => match a.rerun, a.peer with
    | some d, some r => judgeRound s a d r
    | _, _ => s
  | none => s

/-- ARBITRATE: the peer's re-run (R645). -/
def takeArb (r : ArbMsg) (s : State) : State :=
  judgeArb (modArb s r.sess r.reqId fun a => { a with peer := some r }) r.sess r.reqId

/-! ### Joining -/

/-- Commits above `c` are discarded with a Log record each (R62). -/
def discardTail (s : State) (c : Nat) : State :=
  let gone := commitsAbove s c
  let s := gone.foldl (fun s m => logOpen s 0x0C 2 [m.csn % 2 ^ 32, m.csn / 2 ^ 32]) s
  let s := modPrl s fun p => { p with tailDiscards := satInc 255 p.tailDiscards gone.length }
  { s with ksc := { s.ksc with
    commits := s.ksc.commits.filter fun m => decide (m.csn ≤ c)
    die0 := min s.ksc.die0 (max c s.ksc.baseCsn)
    die1 := min s.ksc.die1 (max c s.ksc.baseCsn)
    erasedTo := min s.ksc.erasedTo (max c s.ksc.baseCsn)
    durable := min s.ksc.durable (max c s.ksc.baseCsn)
    v := min s.ksc.v (max c s.ksc.baseCsn) } }

/-- Sessions that a joined standby must hold: their anchors go out again when it joins (log 35). -/
def mirrorSessions (s : State) : State :=
  (s.net.sessions.filter fun x => !x.foreign && x.live).foldl (fun s x => sendPlp s 4 (anchorContent x 2)) s

/-- The peer is joined (R59, R629, R632, R641): commits wait for it from now on, no longer for a `solo` that is being written,
and a takeover whose second step still waited for that goes on. -/
def peerJoined (s : State) : State :=
  let s := setRole s .active
  let s := if s.prl.failover && s.prl.pendingSolo then finishTakeover s else s
  let s := modPrl s fun p => { p with
    joined := true, peerJoining := false, solo := false, pendingSolo := false, epoch := p.epoch + 1, txSeq := 0, rxSeq := 0, unacked := []
    joins := satInc 255 p.joins, standbySince := now s, peerYield := false }
  mirrorHeld (mirrorSessions s)

/-- The message of a HEARTBEAT (Table 16.5). -/
def heartbeatContent (s : State) : List Nat :=
  [s.prl.state.code, s.ksc.v, s.ksc.durable, s.mer.t, s.mer.unc, s.mer.state.code, twos s.mer.slew]

/-- HEARTBEAT (R627, R633, R638, R812): state, V, durable CSN and the Meridian discipline of the peer. -/
def takeHeartbeat (x : PeerState) (s : State) : State :=
  let s := modPrl s fun p => { p with peerV := x.v, peerDur := x.durable }
  match roleOf s with
  | .standby => followPeer s x.time x.unc x.servo x.slew
  | .joining =>
    if s.lcf.stage = 9 ∧ (x.state = 1 ∨ x.state = 3 ∨ x.state = 5) then sendJoin s else s
  | _ => s

/-- The commit follows the unit's own history, and its chain digest verifies (R634, R635). -/
def follows (s : State) (c : Commit) : Bool :=
  c.csn == lastCsn s + 1 && c.digest == chainDigest (lastDigest s) c.csn c.recs

/-- A commit from the serving unit: verified, sealed and written; its requester tuple becomes an entry without reply
(R634 to R636). -/
def takeCommit (c : Commit) (s : State) : State :=
  if (roleOf s = .standby ∨ roleOf s = .joining) ∧ follows s c = true then
    let s := journalCommit (fixLoads s (cfgAt s (lastCsn s)) c.recs) c
    match c.requester with
    | some r =>
      let e : Retained :=
        { sess := r.sess, reqId := r.reqId, digest := r.digest, mirrored := true, orphan := some (c.csn, c.single) }
      { s with net := { s.net with
        retention := s.net.retention.filter (fun y => !(y.sess == r.sess && y.reqId == r.reqId)) ++ [e] } }
    | none => s
  else s

/-- COMMIT_ACK (R634, R641): the peer's durable CSN; a joining peer that has reached V is joined. -/
def takeCommitAck (csn : Nat) (s : State) : State :=
  let s := modPrl s fun p => { p with peerDur := csn }
  if s.prl.peerJoining = true ∧ blockEn s 12 0 = true ∧ csn = s.ksc.v then peerJoined s else s

/-- A mirrored anchor (Table 16.6). -/
def takeAnchor (a : AnchorMsg) (s : State) : State :=
  if roleOf s = .standby then
    let x : Session :=
      { id := a.sess, port := a.port, state := .established, dom := a.dom, home := a.home, gen := a.gen
        mgmt := a.port == 4, foreign := a.port == 4, sg := a.sg, keys := [(a.gen, a.keys)]
        rxSwitch := some a.rxSwitch, txSwitch := some a.txSwitch, anchored := true }
    { s with net := { s.net with sessions := s.net.sessions.filter (fun y => y.id != a.sess) ++ [x] } }
  else s

/-- A mirrored retention entry or its removal (R600, R636). -/
def takeRetain (r : Requester) (reply : Option ReplyMsg) (remove : Bool) (s : State) : State :=
  if roleOf s ≠ .standby then s
  else
    let others := s.net.retention.filter fun y => !(y.sess == r.sess && y.reqId == r.reqId)
    if remove then { s with net := { s.net with retention := others } }
    else
      let m := reply.map fun m : ReplyMsg =>
        ({ reqId := r.reqId, status := m.status, rflags := m.rflags, csn := m.csn, payload := m.payload } : Reply)
      let orphan := if m.isSome then none else (findRet s r.sess r.reqId).bind (·.orphan)
      let e : Retained :=
        { sess := r.sess, reqId := r.reqId, digest := r.digest, reply := m, sentAt := some (now s), acked := false,
          mirrored := true, orphan := orphan }
      { s with net := { s.net with retention := others ++ [e] } }

/-- A mirrored quarantine: the session has ended on the serving unit (R605, R606). -/
def takeQuarantine (sess start : Nat) (s : State) : State :=
  if roleOf s = .standby then
    let s := dropRet s sess
    { s with net := { s.net with
      sessions := s.net.sessions.filter fun y => y.id != sess
      quarantine := s.net.quarantine ++ [(sess, now s - (s.mer.t - start))] } }
  else s

/-- A sampled request (R644). -/
def takeCompare (m : Sample) (s : State) : State :=
  if roleOf s = .standby then modPrl s fun p => { p with samples := p.samples ++ [m] } else s

/-- The mirrored divergence list (R646). -/
def takeDiverge (l : List DivEntry) (all : Bool) (s : State) : State :=
  let s := modPrl s fun p => { p with divList := l, divAll := all }
  if l.isEmpty && !all then clearDivergence s
  else if s.prl.state = .divergent then s
  else alarmEvent (modPrl s fun p => { p with role := p.state, state := .divergent }) 24 l.length

/-- The highest CSN at which the two chains agree, out of the joining unit's CSNs with their digests: below the journal that
this unit holds there is nothing to compare, and a full copy follows (R639, log 106). -/
def agreeCsn (s : State) (l : List (Nat × List Byte)) : Nat :=
  (l.filter fun d => (digestAt s d.1 == some d.2) || decide (d.1 < s.ksc.baseCsn)).foldl (fun n d => max n d.1) 0

/-- The configuration records that make a configuration. -/
def confsOf (c : Cfg) : List ConfRec :=
  c.domains.map .domainCreate
    ++ c.insts.map (fun x => .instCreate x.1 x.2.dom x.2.share) ++ c.insts.map (fun x => .adminState x.1 x.2.enabled)
    ++ c.queues.map (fun x => .queueConfigure x.1 x.2)
    ++ c.images.map (fun x => .imageLoad x.1.1 x.1.2.1 x.1.2.2 x.2)
    ++ c.binds.map (fun x => .bind x.2.1 x.1 x.2.2.1 x.2.2.2)
    ++ c.floors.map (fun x => .raiseFloor x.1.1 x.1.2 x.2)
    ++ c.officers.map (fun x => .officerSet x.1 x.2) ++ c.policies.map (fun x => .policy x.1 x.2)
    ++ c.settings.map (fun x => .settings x.1 x.2) ++ c.usages.map (fun x => .usage x.1.1 x.2) ++ [.profile c.profile]

/-- All mirrored records as of a CSN, as one block (R623, R639). -/
def fullBlock (s : State) (n : Nat) : Commit :=
  let c := cfgAt s n
  { csn := n, recs := (confsOf c).map .conf ++ c.keys.map .keyCreate, requester := none, digest := (digestAt s n).getD [] }

/-- The directory as of a CSN, which a full copy carries beside the records: domain, index and last generation (R363). -/
def directoryContent (s : State) (n : Nat) : List Nat :=
  let g := (cfgAt s n).gens
  g.length :: g.flatMap fun x => [x.1.1, x.1.2, x.2]

/-- Catch-up from CSN `c` (R639): the journal from `c` + 1, or a full copy as of the highest durable CSN and the journal after
it. -/
def sendCatchup (s : State) (c : Nat) : State :=
  let journal := fun (s : State) (n : Nat) =>
    (s.ksc.commits.filter fun m => decide (n < m.csn)).foldl (fun s m => sendPlp s 10 (commitMsg m)) s
  if s.ksc.baseCsn ≤ c then journal s c
  else journal (sendPlp s 10 (commitMsg (fullBlock s s.ksc.durable) ++ directoryContent s s.ksc.durable)) s.ksc.durable

/-- JOIN (R639): the serving unit answers with the highest agreeing CSN and starts the catch-up; the joining unit discards
its commits above it. -/
def takeJoin (l : List (Nat × List Byte)) (s : State) : State :=
  match roleOf s with
  | .single =>
    if blockEn s 12 0 then
      let s := modPrl s fun p => { p with peerJoining := true, unacked := [] }
      let c := agreeCsn s l
      sendCatchup (sendPlp s 10 [c]) c
    else s
  | .joining => discardTail s (l.foldl (fun n d => max n d.1) 0)
  | _ => s

/-- A record of a full copy: a key's keeps its stamps (R367). -/
def Cfg.copyRec (c : Cfg) (csn : Nat) : Rec → Cfg
  | .keyCreate k => { c with keys := c.keys ++ [k] }
  | r => c.applyRec csn r

/-- The committed state that a full copy brings, with its directory (R363, R639). -/
def copiedCfg (cs : List Commit) (dir : Directory) : Cfg :=
  let c : Cfg := cs.foldl (fun c m => m.recs.foldl (fun c r => Cfg.copyRec c m.csn r) c) ({} : Cfg)
  { c with gens := dir }

/-- What a full copy replaces: a key that it lacks is deleted, the old copies of the others are superseded, and a domain that it
lacks is erased (R321, R378, R379). -/
def replaceOld (s : State) (new : Cfg) : State :=
  let old := cfgAt s (lastCsn s)
  let s := (old.domains.filter fun d => !new.domains.contains d).foldl (deleteDomain old) s
  (old.keys.filter fun k => domExists new k.name.dom).foldl (fun s k =>
    if new.keys.any (fun y => y.name == k.name) then scheduleErase s k.name (copiesOf s k.name) else deleteVisible s k.name) s

/-- A full copy of the mirrored records at the CSN of the last commit listed: each key's records are sealed and written anew
(R369, R639). -/
def fullCopy (s : State) (cs : List Commit) (dir : Directory) : State :=
  let n := cs.foldl (fun n m => max n m.csn) 0
  let base := copiedCfg cs dir
  let put := fun (x : Nat × List (KeyName × List Nat)) (k : KeyRec) =>
    let r := recordsOf k.attrs.alg k.attrs.size
    (x.1 + r, x.2 ++ [(k.name, (List.range r).map fun i => x.1 + 1 + i)])
  let s := replaceOld s base
  let (w, recWseq) := base.keys.foldl put (s.ksc.wseq, [])
  let s := { s with ksc := { s.ksc with
    base := base, baseCsn := n, commits := [], die0 := n, die1 := n, durable := n, v := n, wseq := w, recWseq := recWseq
    blockWseq := [], erasedTo := n, digest0 := (cs.getLast?.map (·.digest)).getD (zeros 16) } }
  followImages (followCopy s)

/-- CATCHUP (R639): the serving unit's journal, or a full copy of its records with the directory. -/
def takeCatchup (cs : List Commit) (full : Option Directory) (s : State) : State :=
  if roleOf s ≠ .joining then s
  else match full with
    | some dir => fullCopy s cs dir
    | none => cs.foldl (fun s c =>
        if follows s c then journalCommit (fixLoads s (cfgAt s (lastCsn s)) c.recs) c else s) s

/-- HANDBACK names the second (R650). -/
def takeHandback (second : Nat) (s : State) : State :=
  if roleOf s = .standby then modPrl s fun p => { p with handbackAt := some second } else s

/-- An item that HANDOVER brings. -/
def handedItem (s : State) (h : HandItem) : Item :=
  { serial := s.dsp.nextSerial, origin := if h.delay.isSome then .delayed else .posted, inst := h.inst, dom := h.dom,
    queue := h.queue, cls := h.cls, entry := h.entry, deadline := h.deadline, payload := h.payload, admitted := s.mer.t }

/-- HANDOVER: posted items and delay-list entries with their due ticks and insertion sequences (R651). -/
def takeHandover (items : List HandItem) (s : State) : State :=
  if roleOf s ≠ .standby then s
  else items.foldl (fun s h =>
    let x := handedItem s h
    let s := { s with dsp := { s.dsp with nextSerial := s.dsp.nextSerial + 1 } }
    match h.delay with
    | some (due, q) => { s with dsp := { s.dsp with
        delay := s.dsp.delay ++ [{ item := x, due := due, seq := q, coarse := decide (s.mer.t + 2 ^ 24 ≤ due) }]
        nextSeq := max s.dsp.nextSeq ((q + 1) % 2 ^ 32) } }
    | none => addWork s x) s

/-- YIELD (R627): roles are decided. -/
def takeYield (s : State) : State := decideRole (modPrl s fun p => { p with peerYield := true })

/-! ### Drill on the pair link -/

/-- What an accepted message does. -/
def plpEffect (m : PlpMsg) (s : State) : State :=
  match m with
  | .heartbeat x => takeHeartbeat x s
  | .commit c => takeCommit c s
  | .commitAck n => takeCommitAck n s
  | .anchor a => takeAnchor a s
  | .retain r y d => takeRetain r y d s
  | .quarantine i t => takeQuarantine i t s
  | .compare m => takeCompare m s
  | .compareResult i r b => takeVerdict i r b s
  | .arbitrate r => takeArb r s
  | .diverge l a => takeDiverge l a s
  | .join l => takeJoin l s
  | .catchup c b => takeCatchup c b s
  | .handback n => takeHandback n s
  | .handover l => takeHandover l s
  | .yielded => takeYield s

/-- JOIN is taken whatever its epoch (log 29). -/
def PlpMsg.isJoin : PlpMsg → Bool
  | .join _ => true
  | _ => false

/-- Process a PLP message that reached the receiver. -/
def plpDeliver (s : State) (p : Plp) (m : PlpMsg) : State :=
  if m.commits = true ∧ kscOn s = false then s else plpTake s p (plpEffect m) m.isJoin

/-- Released PLP messages are received. -/
def plpRelease (s : State) (l : List DrillFrame) : State :=
  l.foldl (fun s f => match f with | .plp p m => plpDeliver s p m | _ => s) s

/-- A PLP message arrives: Drill acts on it first (R775, R776). -/
def plpIn (s : State) (p : Plp) (m : PlpMsg) : State :=
  let rx := drlFld s 4 0x010 1 1 == 0
  let (a, s) := drillDecide s 4 0 none 8
  let after := fun s => if rx then let (l, s) := passedOne s 4; plpRelease s l else s
  match a with
  | .pass => after (plpDeliver s p m)
  | .drop => s
  | .corrupt _ => after (plpDeliver s { p with crcOk := false } m)
  | .duplicate => after (plpDeliver (plpDeliver s p m) p m)
  | .hold => holdFrame s 4 (.plp p m)

/-! ### Commands: received messages -/

/-- HEARTBEAT (R633). -/
def execHeartbeat (p : Plp) (x : PeerState) (s : State) : Host.Outcome State Fault Refusal := .next (plpIn s p (.heartbeat x))

/-- COMMIT (R634, R635): the commit block and its chain digest. -/
def execCommit (p : Plp) (c : Commit) (digest : List Byte) (s : State) : Host.Outcome State Fault Refusal :=
  .next (plpIn s p (.commit { c with digest := digest }))

/-- COMMIT_ACK (R641). -/
def execCommitAck (p : Plp) (csn : Nat) (s : State) : Host.Outcome State Fault Refusal := .next (plpIn s p (.commitAck csn))

/-- ANCHOR (R571). -/
def execAnchor (p : Plp) (a : AnchorMsg) (s : State) : Host.Outcome State Fault Refusal := .next (plpIn s p (.anchor a))

/-- RETAIN (R636). -/
def execRetain (p : Plp) (r : Requester) (reply : Option ReplyMsg) (remove : Bool) (s : State) :
    Host.Outcome State Fault Refusal := .next (plpIn s p (.retain r reply remove))

/-- QUARANTINE (R606). -/
def execQuarantine (p : Plp) (sess start : Nat) (s : State) : Host.Outcome State Fault Refusal :=
  .next (plpIn s p (.quarantine sess start))

/-- COMPARE (R644). -/
def execCompare (p : Plp) (sess reqId snap : Nat) (digest : List Byte) (m : Sampled) (s : State) :
    Host.Outcome State Fault Refusal :=
  .next (plpIn s p (.compare { m with sess := sess, reqId := reqId, snap := snap, digest := digest }))

/-- COMPARE_RESULT (R645): the standby's verdict. -/
def execCompareResult (p : Plp) (sess reqId : Nat) (matched : Bool) (s : State) : Host.Outcome State Fault Refusal :=
  .next (plpIn s p (.compareResult sess reqId matched))

/-- ARBITRATE (R645, Table 16.8 A1): the peer's re-run, whether it equals the peer's first result, and whether the known-answer
tests of its core kinds and of its engine kinds passed. -/
def execArbitrate (p : Plp) (sess reqId : Nat) (digest : List Byte) (same coresPass enginesPass : Bool) (s : State) :
    Host.Outcome State Fault Refusal :=
  .next (plpIn s p (.arbitrate
    { sess := sess, reqId := reqId, digest := digest, same := same, pass := coresPass && enginesPass }))

/-- DIVERGE (R646). -/
def execDiverge (p : Plp) (l : List DivEntry) (all : Bool) (s : State) : Host.Outcome State Fault Refusal :=
  .next (plpIn s p (.diverge l all))

/-- JOIN (R639): the highest durable CSN with its chain digest, and the digests of lower CSNs (log 106). -/
def execJoin (p : Plp) (top : Nat × List Byte) (below : List (Nat × List Byte)) (s : State) :
    Host.Outcome State Fault Refusal :=
  .next (plpIn s p (.join (top :: below)))

/-- CATCHUP (R639). -/
def execCatchup (p : Plp) (cs : List Commit) (full : Option Directory) (s : State) : Host.Outcome State Fault Refusal :=
  .next (plpIn s p (.catchup cs full))

/-- HANDBACK (R650). -/
def execHandback (p : Plp) (second : Nat) (s : State) : Host.Outcome State Fault Refusal :=
  .next (plpIn s p (.handback second))

/-- HANDOVER (R651). -/
def execHandover (p : Plp) (items : List HandItem) (s : State) : Host.Outcome State Fault Refusal :=
  .next (plpIn s p (.handover items))

/-- YIELD (R627). -/
def execYield (p : Plp) (s : State) : Host.Outcome State Fault Refusal := .next (plpIn s p .yielded)

/-! ### Commands: timers and events -/

/-- HEARTBEAT_SEND (R633): nothing sent for 50 µs. -/
def execHeartbeatSend (s : State) : Host.Outcome State Fault Refusal :=
  .next <| if s.pwr.mainPower = true ∧ s.prl.lastTx + 800 ≤ now s then sendPlp s 1 (heartbeatContent s) else s

/-- PLP_RETRANSMIT (R633): `ack` has not advanced for 20 µs; the frames go out again from the oldest on. -/
def execPlpRetransmit (s : State) : Host.Outcome State Fault Refusal :=
  .next <|
    let l := s.prl.unacked.take plpLimit
    if l.isEmpty = false ∧ s.prl.ackAt + 320 ≤ now s then
      let s := l.foldl (fun s f => drillTx s 4 none (.plp f.2.1 f.1 f.2.2)) s
      modPrl s fun p => { p with retx := satInc 0xFFFFFFFF p.retx l.length, ackAt := now s, lastTx := now s }
    else s

/-- LINK_LOSS (R627): no frame has passed for 400 µs. -/
def execLinkLoss (s : State) : Host.Outcome State Fault Refusal :=
  .next <|
    if s.prl.linkUp = true ∧ s.prl.lastRx + 6400 ≤ now s then
      decideRole (modPrl s fun p => { p with linkUp := false, lossAt := now s, peerJoining := false })
    else s

/-- PAIR_ALIVE_IN_DEASSERT (R627). -/
def execPairAliveInDeassert (s : State) : Host.Outcome State Fault Refusal :=
  .next (decideRole (modPrl s fun p => { p with aliveIn := false }))

/-- PAIR_ALIVE_IN_ASSERT (R627). -/
def execPairAliveInAssert (s : State) : Host.Outcome State Fault Refusal :=
  .next (decideRole (modPrl s fun p => { p with aliveIn := true }))

/-- LINK_WAIT_LOG (Table 16.3, Table 20.4): event 0x0C01 after 10 ms. -/
def execLinkWaitLog (s : State) : Host.Outcome State Fault Refusal :=
  .next <|
    if roleOf s = .active ∧ s.prl.linkUp = false ∧ s.prl.aliveIn = true ∧ s.prl.lossAt + 10 * tickMs ≤ now s then
      let v := s.ksc.v
      logEvent s 0x0C01 0x0C 2 [v % 2 ^ 32, v / 2 ^ 32, min 0xFFFFFFFF (commitsAbove s v).length]
    else s

/-- FENCE_WATCHDOG_EXPIRY (R625). -/
def execFenceWatchdogExpiry (s : State) : Host.Outcome State Fault Refusal :=
  .next (modPrl s fun p => { p with fence := false })

/-- What a unit in JOINING makes of the peer it hears (R630). -/
def decideJoin (s : State) (peer : Option PeerHeard) : State :=
  match peer with
  | some p =>
    if p.state = 1 ∨ p.state = 3 ∨ p.state = 5 then sendJoin (enterService s)
    else if p.state = 6 then
      if s.prl.solo && p.solo then enterHoldWater (modPrl s fun q => { q with joinConflict := true }) fcConflict
      else if s.prl.solo || (!p.solo && s.prl.preferred) then serveSingle s
      else enterService s
    else s
  | none =>
    if s.prl.solo && !s.prl.renounced then serveSingle s
    else if s.lcf.stage = 9 then s else enterHoldWater s fcUndecided

/-- JOIN_WAIT_EXPIRY (R630). -/
def execJoinWaitExpiry (peer : Option PeerHeard) (s : State) : Host.Outcome State Fault Refusal :=
  .next <|
    if roleOf s = .joining ∧ s.prl.joinSent = false ∧ s.prl.joinStart + 2 * tickS ≤ now s ∧ s.lcf.holdWater = false then
      decideJoin s peer
    else s

/-- `holdoff_s` in ticks (Table 16.12). -/
def holdoff (s : State) : Nat := clamp 10 900 (fld s 0x000C0010 0 10) * tickS

/-- HOLDOFF_EXPIRY (R650): the active unit names the second of the hand-back. -/
def execHoldoffExpiry (s : State) : Host.Outcome State Fault Refusal :=
  .next <|
    if s.prl.state = .active ∧ s.prl.joined = true ∧ s.prl.preferred = false ∧ s.prl.arbitrations = [] ∧
        s.prl.handbackAt = none ∧ s.prl.standbySince + holdoff s ≤ now s then
      let t := nextSecond s.mer.t
      sendPlp (modPrl s fun p => { p with handbackAt := some t }) 11 [t]
    else s

/-- YIELD_REQ (R653). -/
def yieldRequest (s : State) : State :=
  if roleOf s = .active ∧ s.prl.joined = true then
    modPrl s fun p => { p with handbackAt := some (nextSecond s.mer.t) }
  else setBit s 0x000C0008 15

/-- YIELD_REQ (R653): a write of 1 to `yield_req`. -/
def execYieldReq (s : State) : Host.Outcome State Fault Refusal := .next (yieldRequest s)

/-- Step 1 of R651: `failover`, and the queued host items go without reply. -/
def startYield (s : State) : State :=
  modWork (modPrl s fun p => { p with failover := true, yielding := true }) fun l =>
    l.filter fun w => w.carry.isSome || w.item.origin != .host

/-- Chains still run or are parked (step 2 of R651). -/
def chainsLive (s : State) : Bool := !(liveChains s).isEmpty

/-- Content of a HANDOVER: the queued posted items, and the delay-list entries with due tick and insertion sequence. -/
def handoverContent (s : State) : List Nat :=
  let item := fun x : Item => [x.inst, x.dom, x.queue, x.cls, x.entry, x.deadline, x.payload.length] ++ x.payload.map (·.toNat)
  s.dsp.work.flatMap (fun w => 0 :: item w.item) ++ s.dsp.delay.flatMap fun d => 1 :: d.due :: d.seq :: item d.item

/-- Steps 3 and 4 of R651: HANDOVER, YIELD, and the fence falls; the unit enters JOINING. -/
def finishYield (s : State) : State :=
  let s := sendPlp s 11 (handoverContent s)
  let s := modWork { s with dsp := { s.dsp with delay := [] } } fun _ => []
  let s := sendPlp s 12 []
  enterJoining (modPrl s fun p => { p with handbacks := satInc 255 p.handbacks })

/-- The hand-back once its second is reached (R651): repeated until every chain has ended. -/
def handbackDue (s : State) : State :=
  match s.prl.handbackAt with
  | some t =>
    if roleOf s = .active ∧ s.prl.joined = true ∧ t ≤ s.mer.t then
      let s := if s.prl.yielding then s else startYield s
      if chainsLive s then s else finishYield s
    else s
  | none => s

/-- HANDBACK_SECOND (R651): from S on. -/
def execHandbackSecond (s : State) : Host.Outcome State Fault Refusal := .next (handbackDue s)

end Sys2Proof.Machine
end

