-- ==== Sys2Proof/Machine/Admit.lean ====
section
/-! DEFINITION. Admission of host requests (Table 1.4, R40, R284, R596 to R598), tokens, and the request record of Table
14.4. -/

namespace Sys2Proof.Machine

/-! ### Tokens (R284) -/

/-- Units in one token: a bucket gains `r` units per tick. -/
def tokenUnit : Nat := 16000000

/-- An instance's bucket at the present. -/
def refill (s : State) (i : Nat) : State :=
  match (cfgV s).share i with
  | none => s
  | some sh => modIns s i fun x =>
    x.settle sh (now s)

/-- TOKEN_REFILL (R284). -/
def execTokenRefill (i : Nat) (s : State) : Host.Outcome State Fault Refusal := .next (refill s i)

/-- A class-0 item takes a token where one is present; whether it is then reserved. -/
def takeToken (s : State) (i : Nat) : Bool × State :=
  let s := refill s i
  match insRt s i with
  | some x => if tokenUnit ≤ x.tokens then (true, modIns s i fun y => { y with tokens := y.tokens - tokenUnit }) else (false, s)
  | none => (false, s)

/-! ### Retention (R595 to R598) -/

/-- Digest of a request (R595). -/
def requestDigest (hdr payload : List Byte) : List Byte := sha3_256 (slice hdr 4 12 ++ payload)

/-- Bytes of an entry: those of its stored reply, or as many as the reply still to come may take (log 117). -/
def Retained.bytes (e : Retained) : Nat :=
  match e.reply with
  | some r => 24 + r.payload.length
  | none => e.room

/-- Room for one more entry whose reply takes up to `room` bytes (R598): entries of the unit and of the session, and bytes of
stored replies. -/
def retRoom (s : State) (sess room : Nat) : Bool :=
  let l := s.net.retention
  decide (l.length < 1048576 ∧ (l.filter fun e => e.sess == sess).length < 1024 ∧
    (l.map Retained.bytes).foldl (· + ·) room ≤ 1073741824)

/-- Bytes that a reply of a queue may take. -/
def replyRoom (s : State) (q : Nat) : Nat := 24 + ((alGet (cfgV s).queues q).map (·.replyCap)).getD 0

/-- A PENDING entry (R596). -/
def addRet (s : State) (sess req : Nat) (digest : List Byte) (room : Nat) : State :=
  { s with net := { s.net with
    retention := s.net.retention ++ [{ sess := sess, reqId := req, digest := digest, room := room }] } }

/-- Set REPLAYED in reply flags. -/
def setReplayed (f : Nat) : Nat := f / 4 * 4 + f % 2 + 2

/-- The answer that an entry gives to a request with its digest (Table 15.1, R637). -/
def replayEntry (s : State) (sess : Nat) (e : Retained) (class0 : Bool) : State :=
  match e.reply, e.orphan with
  | some r, _ => queueReply s sess { r with rflags := setReplayed r.rflags, own := false }
  | none, some (csn, single) =>
    queueReply s sess { reqId := e.reqId, status := if single then St.okSingle else 0, rflags := 2 + b2n single, csn := csn
                        class0 := class0 }
  | none, none => modRet s sess e.reqId fun e => { e with again := e.again + 1 }

/-! ### The request record -/

/-- Rows 1 to 3 of Table 1.4. -/
def moduleCheck (s : State) : Nat :=
  if inService s = false then St.holdWater else if s.bin.lock then St.tamperLock else if s.mec.paused then St.paused else 0

/-- Row 4 (R14, R560). -/
def recordOk (hdr payload : List Byte) : Bool :=
  hdr.length == 24 && decide (fieldAt hdr 4 1 < 8 ∧ fieldAt hdr 6 2 < 2 ^ 14 ∧ fieldAt hdr 10 2 = payload.length ∧
    payload.length ≤ 8192) && rsvdOk hdr 5 1 && rsvdOk hdr 12 4
    && (fieldAt hdr 4 1 % 4 == 0 || fieldAt hdr 16 8 == 0)

/-- What row 13 says. -/
inductive Kept where
  | fresh
  | replay (e : Retained)
  | refuse (st : Nat)

/-- Row 13 (R597, R598). -/
def retainCheck (s : State) (sess req q : Nat) (retain : Bool) (digest : List Byte) : Kept :=
  match findRet s sess req with
  | some e => if e.digest = digest then .replay e else .refuse St.idConflict
  | none => if retain && !retRoom s sess (replyRoom s q) then .refuse St.retainFull else .fresh

/-- The work item of an admitted request (R279, R284). -/
def hostItem (s : State) (x : Session) (b : QBlock) (hdr payload digest : List Byte) (stamp : Nat) (reserved : Bool) : Item :=
  let cls := fieldAt hdr 4 1 % 4
  let dl := fieldAt hdr 16 8
  { serial := s.dsp.nextSerial, origin := .host, inst := b.inst, dom := x.dom, queue := fieldAt hdr 6 2, cls := cls
    entry := fieldAt hdr 8 2, deadline := if cls = 0 ∧ dl = 0 then stamp + b.c0Offset else dl
    admitted := s.mer.t, reqId := fieldAt hdr 0 4, sess := some x.id, retain := bitOf (fieldAt hdr 4 1) 2
    digest := digest, payload := payload, reserved := reserved }

/-- A refused request: answered with CSN 0, counted against the instance of the queue that it names (`counts`), and traced
(R311). -/
def refuseRecord (s : State) (x : Session) (hdr : List Byte) (st : Nat) (counts : Bool := true) : State :=
  let q := fieldAt hdr 6 2
  let cls := fieldAt hdr 4 1 % 4
  let inst := if 2 ^ 14 ≤ q then none else (alGet (cfgV s).queues q).map (·.inst)
  let y : Item := { inst := inst.getD 0, queue := q % 2 ^ 14, cls := cls, reqId := fieldAt hdr 0 4 }
  let s := traceItem (countStatus s (if counts then inst else none) st) 3 y 0 st
  let s := if st = St.idConflict then modPort s x.port fun p => { p with idConflict := satInc 65535 p.idConflict } else s
  refuse s (some x.id) (fieldAt hdr 0 4) st (cls == 0)

/-- An admitted request becomes an item (R275, R284). -/
def admitItem (s : State) (x : Session) (b : QBlock) (hdr payload digest : List Byte) (stamp : Nat) : State :=
  let cls := fieldAt hdr 4 1 % 4
  let rate := (((cfgV s).share b.inst).map (·.c0Rate)).getD 0
  let (tok, s) := if cls = 0 ∧ 0 < rate then takeToken s b.inst else (false, s)
  let y := hostItem s x b hdr payload digest stamp tok
  let s := if cls = 0 ∧ 0 < rate ∧ tok = false then trouble (traceItem s 4 y 0 0) b.inst 16 else s
  let s := if y.retain then addRet s x.id y.reqId digest (replyRoom s y.queue) else s
  addWork { s with dsp := { s.dsp with nextSerial := s.dsp.nextSerial + 1 } } y

/-- Rows 5 to 15 of Table 1.4 for a well-formed record. -/
def admitChecked (s : State) (x : Session) (hdr payload : List Byte) (stamp : Nat) : State :=
  let q := fieldAt hdr 6 2
  let d := requestDigest hdr payload
  let st := targetCheck s x.dom (some x.port) q (fieldAt hdr 8 2)
  if st ≠ 0 then refuseRecord s x hdr st
  else match retainCheck s x.id (fieldAt hdr 0 4) q (bitOf (fieldAt hdr 4 1) 2) d with
    | .replay e => replayEntry s x.id e (fieldAt hdr 4 1 % 4 == 0)
    | .refuse st => refuseRecord s x hdr st
    | .fresh =>
      let st := roomCheck s q
      if st ≠ 0 then refuseRecord s x hdr st
      else match alGet (cfgV s).queues q with
        | some b => admitItem s x b hdr payload d stamp
        | none => s

/-- One request record on a host session (R40). A unit that yields drops it (R651). -/
def admitRecord (s : State) (id : Nat) (hdr payload : List Byte) (stamp : Nat) : State :=
  match findSess s id with
  | none => s
  | some x =>
    if x.mgmt || !x.live || x.state == .closing || s.prl.yielding then s
    else
      let st := moduleCheck s
      if st ≠ 0 then refuseRecord s x hdr st false
      else if recordOk hdr payload = false then refuseRecord s x hdr St.badFormat
      else admitChecked s x hdr payload stamp

/-- REQUEST_RECORD (Table 1.4): one record of a DATA frame whose last bit came at `stamp`. -/
def execRequestRecord (sess : Nat) (hdr payload : List Byte) (stamp : Nat) (s : State) : Host.Outcome State Fault Refusal :=
  .next (admitRecord s sess hdr payload stamp)

end Sys2Proof.Machine
end

