-- ==== Sys2Proof/Machine/Sampling.lean ====
section
/-! DEFINITION. Output comparison at the end of a chain (R642 to R645): which chains become samples, and what the result of a
re-run settles; and program faults, whose answers are results like any other. -/

namespace Sys2Proof.Machine

/-- Result digest of a sample (R643); for a committing chain the digest of its records follows. -/
def resultDigest (status csn : Nat) (payload recs : List Byte) : List Byte :=
  (sha3_256 (leBytes 2 status ++ leBytes 8 csn ++ leBytes 2 payload.length ++ payload ++ recs)).take 16

/-- Coverage exponent of a class (Table 16.12). -/
def coverage (s : State) (cls : Nat) : Nat := fld s 0x000C0014 (4 * cls) 4

/-- Image entry of a chain (R646). -/
def divEntryOf (x : Item) : DivEntry :=
  match x.image with
  | some im => { dom := im.dom, image := im.image, version := im.version, entry := x.entry }
  | none => { dom := x.dom, image := 0, version := 0, entry := x.entry }

/-- The entry is marked deterministic: bit 24 of its entry word (R145). -/
def deterministic (x : Item) : Bool :=
  match x.image with
  | some im => match imageEntry im x.entry with
    | some w => bitOf w 24
    | none => false
  | none => false

/-- SHA3-256 of the records that a chain has committed; none for a chain that committed nothing. -/
def committedRecs (s : State) (x : Item) : List Byte :=
  match x.committed with
  | some c => ((s.ksc.commits.find? fun m => m.csn == c).map fun m => sha3_256 (commitBytes m.recs)).getD []
  | none => []

/-- The sample that an ended chain makes. -/
def sampleOf (s : State) (x : Item) (sess status : Nat) (payload : List Byte) : Sample :=
  { sess := sess, reqId := x.reqId, inst := x.inst, dom := x.dom, queue := x.queue, entry := x.entry, deadline := x.deadline
    payload := x.payload, snap := x.snap, csn := replyCsn x
    digest := resultDigest status (replyCsn x) payload (committedRecs s x), div := divEntryOf x }

/-- Content of a COMPARE: the sampled request and its digest (Table 16.5). -/
def compareContent (m : Sample) : List Nat :=
  [m.sess, m.reqId, m.inst, m.dom, m.queue, m.entry, m.deadline, m.snap, m.csn, m.div.dom, m.div.image, m.div.version,
    m.div.entry, m.payload.length] ++ (m.payload ++ m.digest).map (·.toNat)

/-- An ended chain may become a sample of the comparison (R642, R644). -/
def sampleChain (s : State) (x : Item) (status : Nat) (payload : List Byte) : State :=
  let n := coverage s x.cls
  match x.origin, x.sess with
  | .host, some id =>
    if (s.prl.joined && x.eligible && deterministic x && n != 15) = false then s
    else match sysDraw s .unit 2 with
      | none => s
      | some (b, s) =>
        if leNat b % 2 ^ n ≠ 0 then s
        else if 16384 ≤ s.prl.samples.length then modPrl s fun p => { p with skipped := satInc 65535 p.skipped }
        else
          let m := sampleOf s x id status payload
          sendPlp (modPrl s fun p => { p with samples := p.samples ++ [m] }) 7 (compareContent m)
  | _, _ => s

/-- A re-run of a sample has ended with a result (R644, R645): of an arbitration it goes to the peer and may settle the round;
of the standby's first run the verdict goes to the active unit. -/
def sampleEnd (s : State) (m : Sample) (d : List Byte) : State :=
  match s.prl.arbitrations.find? fun a => isReq a.sample m.sess m.reqId && a.rerun.isNone with
  | some a =>
    let s := modArb s m.sess m.reqId fun a => { a with rerun := some d }
    let s := sendPlp s 8 ([m.sess, m.reqId, b2n (d == a.own), b2n a.tests] ++ d.map (·.toNat))
    judgeArb s m.sess m.reqId
  | none =>
    if roleOf s = .standby ∧ s.prl.samples.any (isReq · m.sess m.reqId) = true then
      let same := m.digest == d
      verdict (sendPlp s 7 [m.sess, m.reqId, b2n same]) m same d
    else s

/-- What the result of an ended chain means for the comparison. -/
def noteResult (s : State) (x : Item) (status : Nat) (payload : List Byte) : State :=
  match x.sample with
  | some m => sampleEnd s m (resultDigest status (replyCsn x) payload x.ranRecs)
  | none => sampleChain s x status payload

/-- End the chain on core `c` with a result of its program; sampling delays no reply (R642). -/
def endRun (s : State) (c : CoreId) (status : Nat) (payload : List Byte) : State :=
  match (s.core c).item with
  | none => s
  | some x => noteResult (endChain s c status payload) x status payload

/-- A program fault counts against the instance (R142, R341); that of a re-run too, since no rule exempts it (log 36). -/
def noteFault (s : State) (x : Item) (status off : Nat) : State :=
  let s := countFault (countStatus s (some x.inst) status) x.inst
  if x.priv then
    logFull s 0x0301 0x03 3 true x.inst [status, off, (match x.image with | some i => i.image | none => 0), x.strokes]
  else s

/-- A program fault at word offset `off` (R140 to R142): outputs of outstanding jobs are discarded, the fault is counted,
and the host receives the fault record. -/
def faultChain (s : State) (c : CoreId) (status off : Nat) : State :=
  match (s.core c).item with
  | none => s
  | some x =>
    let s := scrubJobs s fun j => j.core == c && j.serial == x.serial
    endRun (noteFault s x status off) c status (faultRecord x off)

end Sys2Proof.Machine
end

