-- ==== Sys2Proof/Machine/Mec.lean ====
section
/-! DEFINITION. Memory errors, rekeys and rebuilds, and APU rule epochs (chapter 17), with the commands of this family.
Which errors a DRAM read meets is an operand (log 16); lines that the debug port wrote are listed (log 9). -/

namespace Sys2Proof.Machine

/-- Change the memory controller. -/
def modMec (s : State) (f : Mec → Mec) : State := { s with mec := f s.mec }

/-- State of a region. -/
def regionOf (s : State) (r : Nat) : Region := (alGet s.mec.regions r).getD {}

/-- Change a region. -/
def modRegion (s : State) (r : Nat) (f : Region → Region) : State :=
  modMec s fun m => { m with regions := alSet m.regions r (f (regionOf s r)) }

/-- First region of each area after KS: PS, WQ, SS-A, SS-B (Table 17.2; half of each on the WX-7440). -/
def areaStart (v : Variant) (gib : Nat) : Nat := match v with
  | .wx7480 => gib * 1024
  | .wx7440 => gib * 512

/-- The twin of an SS region (R656). -/
def twinOf (v : Variant) (r : Nat) : Option Nat :=
  if areaStart v 46 ≤ r ∧ r < areaStart v 49 then some (r + areaStart v 3)
  else if areaStart v 49 ≤ r ∧ r < areaStart v 52 then some (r - areaStart v 3) else none

/-- Two line ranges overlap. -/
def linesMeet (a b : Nat × Nat) : Bool := decide (a.1 < b.1 + b.2 ∧ b.1 < a.1 + a.2)

/-! ### Full rebuild -/

/-- The fresh M of a full rebuild is drawn: the MEC waits for the system DRBG (R658, Table 13.3). -/
def drawDue (s : State) : State :=
  if s.mec.masterDue = false then s
  else match sysDraw s .mec 32 with
    | some (k, s) => modMec s fun m => { m with master := k, drawnAt := now s, masterDue := false }
    | none => sysWait s .mec

/-- Steps 1 and 2 of Table 17.5 (R674, R675): service stops without an answer. -/
def fullRebuild (s : State) : State :=
  if s.mec.paused then s
  else
    let s := modMec s fun m =>
      { m with
        paused := true, sweeps := [], rebuilds := [], masterRunning := false, boundary := 0
        fullRebuilds := satInc 255 m.fullRebuilds }
    let s := drainJobs (stopWork s (fun _ => true) none) fun _ => true
    let s := { s with
      dsp := { s.dsp with reserved := [] }
      net := { s.net with retention := [], held := [] } }
    drawDue (modMec s fun m => { m with master := [], dram := [], masterDue := true })

/-- A fault escalates (R673). -/
def escalate (s : State) : State := fullRebuild (setBit s 0x000D0008 10)

/-! ### Region rebuild -/

/-- The item's memory lies in a poisoned range. -/
def itemHit (r : Nat) (ranges : List (Nat × Nat)) (x : Item) : Bool :=
  let p := Config.itemPlace x.serial
  p.1 == r && ranges.any (linesMeet p.2)

/-- The answer of a chain whose continuation record is lost: with CSN 0, and with the commit's once it has committed, which its
answer waits for (R55, R56, R672; log 118). -/
def endLost (s : State) (x : Item) : State :=
  let s := closeChain s x
  match x.origin, x.sess with
  | .host, some id =>
    handReply s id x.committed
      { reqId := x.reqId, status := St.memIntegrity, csn := x.committed.getD 0, class0 := x.cls == 0, own := true }
  | _, _ => s

/-- An item lost in a WQ rebuild (R672). -/
def loseItem (s : State) (w : Work) : State :=
  let s := countStatus s (some w.item.inst) St.memIntegrity
  if w.carry.isSome then endLost s w.item
  else if w.item.origin = .host then refuse s w.item.sess w.item.reqId St.memIntegrity (w.item.cls == 0) true else s

/-- Items of the WQ area that a starting rebuild loses (R672). -/
def loseItems (s : State) (r : Nat) : State :=
  if r < areaStart s.variant 35 ∨ areaStart s.variant 46 ≤ r then s
  else
    let hit := itemHit r (regionOf s r).poison
    let gone := (s.dsp.work ++ s.dsp.parked).filter fun w => hit w.item
    let late := s.dsp.delay.filter fun d => hit d.item
    let s := modWork s fun l => l.filter fun w => !hit w.item
    let s := { s with dsp := { s.dsp with
      parked := s.dsp.parked.filter fun w => !hit w.item
      delay := s.dsp.delay.filter fun d => !hit d.item } }
    late.foldl (fun s d => loseItem s { item := d.item }) (gone.foldl loseItem s)

/-- Queued rebuilds start as the sweeper takes them (R665, R671). -/
def startRebuilds (s : State) : Nat → State
  | 0 => s
  | n + 1 =>
    match s.mec.rebuilds with
    | [] => s
    | r :: rest =>
      if 4 ≤ s.mec.sweeps.length then s
      else
        let s := modMec s fun m => { m with rebuilds := rest, sweeps := m.sweeps ++ [{ region := r, rebuild := true }] }
        startRebuilds (loseItems s r) n

/-- Queue the rebuild of a region (R673). -/
def queueRebuild (s : State) (r : Nat) : State :=
  let twin := match twinOf s.variant r with
    | some t => (regionOf s t).poison.any fun a => (regionOf s r).poison.any (linesMeet a)
    | none => false
  if twin || s.mec.sweeps.any (fun w => w.region == r && w.rebuild) then escalate s
  else if s.mec.rebuilds.contains r then s
  else if 8 ≤ s.mec.rebuilds.length then escalate s
  else startRebuilds (modMec s fun m => { m with rebuilds := m.rebuilds ++ [r] }) 8

/-- An uncorrectable error or MAC failure is counted (Table 17.10). -/
def noteUe (s : State) : State :=
  setBit (modMec s fun m => { m with ue := satInc 65535 m.ue }) 0x000D0008 8

/-- A read that meets a poisoned line (R670). -/
def poisonedRead (s : State) (r : Nat) : State :=
  queueRebuild (logOpen (alarmEvent s 23 r) 0x0D 1 [r]) r

/-- Lines that an error poisons: region, first line and count; a node's are all lines under it (Table 17.4). -/
def MemEvent.lines : MemEvent → Option (Nat × Nat × Nat)
  | .line r l => some (r, l, 1)
  | .node r v i => some (r, i % (2048 / 8 ^ v.val) * 8 ^ (v.val + 1), 8 ^ (v.val + 1))
  | _ => none

/-- The lines are poisoned already: the event has been dealt with (R670). -/
def poisonKnown (s : State) (r first n : Nat) : Bool :=
  (regionOf s r).poison.any fun p => decide (p.1 ≤ first ∧ first + n ≤ p.1 + p.2)

/-- A new error poisons its lines and is dealt with once (R669, R670). -/
def poison (s : State) (r first n : Nat) : State :=
  if poisonKnown s r first n then s
  else poisonedRead (modRegion (noteUe s) r fun x => { x with poison := x.poison ++ [(first, n)] }) r

/-- A read of KS or PS that meets a line which a running rebuild restores waits for the refill (R672). -/
def memWaits (s : State) (m : MemEvent) : Bool :=
  match MemEvent.lines m with
  | some (r, first, n) =>
    decide (r < areaStart s.variant 35) && poisonKnown s r first n && s.mec.sweeps.any fun w => w.region == r && w.rebuild
  | none => false

/-- A fault in the key path while the unit takes over ends in Hold-Water (R649). -/
def keyPathFault (s : State) : State :=
  if s.prl.failover ∧ roleOf s = .single then enterHoldWater s Config.takeoverFailure else s

/-- The event is an uncorrectable error in the key store area (R649, Table 17.2). -/
def keyStoreEvent (v : Variant) : MemEvent → Bool
  | .ok | .corrected => false
  | .line r _ | .node r _ _ | .root r => decide (r < areaStart v 34)

/-- What a DRAM read meets (Table 17.4, R669, R670). -/
def memError (s : State) (m : MemEvent) : State :=
  match m with
  | .ok => s
  | .corrected => modMec s fun m => { m with ce := satInc 65535 m.ce }
  | .root _ => if s.mec.paused then enterHoldWater s fcRebuildFail else fullRebuild (noteUe s)
  | m => if s.mec.paused then enterHoldWater s fcRebuildFail else match MemEvent.lines m with
    | some (r, first, n) => poison s r first n
    | none => s

/-- What a DRAM read meets; an error in the key path of a unit that takes over is fatal to it (R649, R669, R670). -/
def memMeets (s : State) (m : MemEvent) : State :=
  if keyStoreEvent s.variant m then keyPathFault (memError s m) else memError s m

/-- The read returns data. -/
def MemEvent.readable : MemEvent → Bool
  | .ok | .corrected => true
  | _ => false

/-! ### Lines (R659 to R664) -/

/-- Region of a line address, and the line's number in it: the KS area starts at 0x10_0000_0000. -/
def regionOfLine (l : Nat) : Nat := (l - 0x40000000) / 16384
def lineInRegion (l : Nat) : Nat := (l - 0x40000000) % 16384

/-- Encryption of block Bᵢ of region `r` under a master key (R659). -/
def regionBlock (m : List Byte) (r g i : Nat) : List Byte :=
  cryptoBytes .blockEnc [leBytes 2 3, m, leBytes 4 r ++ leBytes 5 g ++ leBytes 1 i ++ zeros 6] 16

/-- K_enc and K_mac of a region under a master key and a generation (R659). -/
def encKey (m : List Byte) (r g : Nat) : List Byte := regionBlock m r g 1 ++ regionBlock m r g 2
def macKey (m : List Byte) (r g : Nat) : List Byte := regionBlock m r g 3 ++ regionBlock m r g 4

/-- Key stream of line `l` at counter `c` (R660). -/
def lineStream (key : List Byte) (l c : Nat) : List Byte :=
  (List.range 4).flatMap fun j =>
    cryptoBytes .blockEnc [leBytes 2 3, key, leBytes 5 l ++ leBytes 3 c ++ leBytes 1 j ++ zeros 7] 16

/-- MAC of a line's ciphertext (R660). -/
def lineMac (key : List Byte) (l c : Nat) (cipher : List Byte) : List Byte :=
  (gcmTag [leBytes 2 3, key] (leBytes 5 l ++ leBytes 3 c ++ zeros 4) cipher []).take 8

/-- Master key and generation in force for a region: below the global boundary M′ (R668). -/
def regionKey (m : Mec) (r : Nat) : List Byte × Nat :=
  (if m.masterRunning && decide (r < m.boundary) then m.masterNew else m.master, ((alGet m.regions r).getD {}).gen)

/-- A line sealed at counter `c` (R660). -/
def sealLine (k : List Byte × Nat) (l c : Nat) (data : List Byte) : DramLine :=
  let r := regionOfLine l
  let x := xorBytes data (lineStream (encKey k.1 r k.2) l c)
  { ctr := c, cipher := x, mac := lineMac (macKey k.1 r k.2) l c x }

/-- What a line holds; counter 0 stands for zeros and checks no MAC (R661), and none where the MAC does not verify (R662). -/
def openLine (k : List Byte × Nat) (l : Nat) (x : DramLine) : Option (List Byte) :=
  let r := regionOfLine l
  if x.ctr = 0 then some (zeros 64)
  else if lineMac (macKey k.1 r k.2) l x.ctr x.cipher = x.mac then
    some (xorBytes x.cipher (lineStream (encKey k.1 r k.2) l x.ctr))
  else none

/-- List a line, addresses rising. -/
def putLine : List (Nat × DramLine) → Nat → DramLine → List (Nat × DramLine)
  | [], l, x => [(l, x)]
  | y :: rest, l, x => if l < y.1 then (l, x) :: y :: rest else if l = y.1 then (l, x) :: rest else y :: putLine rest l x

/-- Counter and bytes of a line as it reads: a listed one, else one with a free counter and free bytes (log 9). No bytes where
the MAC fails. -/
def lineAt (s : State) (l : Nat) : (Nat × Option (List Byte)) × State :=
  match alGet s.mec.dram l with
  | some x => ((x.ctr, openLine (regionKey s.mec (regionOfLine l)) l x), s)
  | none =>
    let c := Config.lineCtr s.free l % 2 ^ 24
    let (b, s) := draw s 64
    ((c, some (if c = 0 then zeros 64 else b)), s)

/-- The line is poisoned. -/
def linePoisoned (s : State) (l : Nat) : Bool :=
  (regionOf s (regionOfLine l)).poison.any (linesMeet (lineInRegion l, 1))

/-- A line counter has come to 16,711,680: a rekey of the region starts where the sweeper has room (R664, R665). -/
def rekeyDue (s : State) (r c : Nat) : State :=
  if 16711680 ≤ c ∧ s.mec.sweeps.length < 4 ∧ s.mec.sweeps.all (·.region != r) then
    modMec s fun m => { m with sweeps := m.sweeps ++ [{ region := r }] }
  else s

/-- Write one line: the counter advances and the whole line is encrypted anew (R661); one to a poisoned line is discarded
(R670), one beyond the last counter waits for the sweep (R665). -/
def putDram (s : State) (l : Nat) (data : List Byte) : State :=
  let (x, s) := lineAt s l
  let r := regionOfLine l
  if linePoisoned s l ∨ x.1 = 2 ^ 24 - 1 then s
  else rekeyDue (modMec s fun m => { m with dram := putLine m.dram l (sealLine (regionKey m r) l (x.1 + 1) data) }) r (x.1 + 1)

/-- Write one line; a line of SS-A is written in SS-B too (R656). -/
def writeLine (s : State) (l : Nat) (data : List Byte) : State :=
  let r := regionOfLine l
  let s := if areaStart s.variant 46 ≤ r ∧ r < areaStart s.variant 49 then putDram s (l + areaStart s.variant 3 * 16384) data else s
  putDram s l data

/-- Lines that `n` bytes from `a` lie in. -/
def linesOf (a n : Nat) : List Nat := (List.range ((a + n - 1) / 64 + 1 - a / 64)).map (a / 64 + ·)

/-- One line of a read: its bytes; a MAC failure poisons the line and reads as nothing (R662, R669). -/
def readLine (s : State) (l : Nat) : List Byte × State :=
  let (x, s) := lineAt s l
  match x.2 with
  | some b => (b, s)
  | none => (zeros 64, memMeets s (.line (regionOfLine l) (lineInRegion l)))

/-- `n` bytes of DRAM from `a`. -/
def dramRead (s : State) (a n : Nat) : List Byte × State :=
  let (b, s) := (linesOf a n).foldl (fun acc l => let (x, s) := readLine acc.2 l; (acc.1 ++ x, s)) ([], s)
  (slice b (a % 64) n, s)

/-- Bytes written over a line: those outside the write keep what the line holds (R661). -/
def mergeLine (old : List Byte) (l a : Nat) (bs : List Byte) : List Byte :=
  (List.range 64).map fun j =>
    if a ≤ l * 64 + j ∧ l * 64 + j < a + bs.length then bs.getD (l * 64 + j - a) 0 else old.getD j 0

/-- Write bytes to DRAM from `a` (R661). -/
def dramWrite (s : State) (a : Nat) (bs : List Byte) : State :=
  (linesOf a bs.length).foldl (fun s l => let (x, s) := readLine s l; writeLine s l (mergeLine x l a bs)) s

/-- The sweep takes the lines that `p` picks from the keys of `old` to those now in force: counter 1, or 0 as before (R664). -/
def sweepLines (old : Mec) (p : Nat → Bool) (s : State) : State :=
  let again := fun (m : Mec) (y : Nat × DramLine) =>
    match openLine (regionKey old (regionOfLine y.1)) y.1 y.2 with
    | some b => if y.2.ctr = 0 then y else (y.1, sealLine (regionKey m (regionOfLine y.1)) y.1 1 b)
    | none => y
  modMec s fun m => { m with dram := m.dram.map fun y => if p y.1 then again m y else y }

/-- The lines that a rebuild restored are no longer as the debug port wrote them (R671). -/
def dropLines (s : State) (p : Nat → Bool) : State :=
  modMec s fun m => { m with dram := m.dram.filter fun y => !p y.1 }

/-! ### Commands -/

/-- Start a master rekey with a fresh M′ (R667, R668). -/
def startMaster (s : State) : State :=
  match sysDraw s .mec 32 with
  | none => sysWait s .mec
  | some (k, s) =>
    modMec s fun m => { m with masterRunning := true, boundary := 0, masterNew := k, drawnNew := now s }

/-- `period_h` in ticks (Table 17.10). -/
def masterPeriod (s : State) : Nat := clamp 1 24 (fld s 0x000D0004 8 5) * 3600 * tickS

/-- MASTER_REKEY_PERIOD (R667). -/
def execMasterRekeyPeriod (s : State) : Host.Outcome State Fault Refusal :=
  .next <|
    if blockEn s 13 0 = true ∧ s.mec.masterRunning = false ∧ s.mec.paused = false ∧
        s.mec.drawnAt + masterPeriod s ≤ now s then startMaster s
    else s

/-- A write of 1 to `master_rekey` (R667). -/
def masterRequest (s : State) : State :=
  if s.mec.masterRunning then setBit s 0x000D0008 9
  else if blockEn s 13 0 = true ∧ s.mec.paused = false then startMaster s else s

/-- MASTER_REKEY (R667). -/
def execMasterRekey (s : State) : Host.Outcome State Fault Refusal := .next (masterRequest s)

/-- MASTER_REKEY_COMPLETE (R668): the boundary has passed the last region and M is erased. -/
def execMasterRekeyComplete (s : State) : Host.Outcome State Fault Refusal :=
  .next <|
    if s.mec.masterRunning = true ∧ s.mec.sweeps = [] then
      sweepLines s.mec (fun l => decide (s.mec.boundary ≤ regionOfLine l)) <| modMec s fun m =>
        { m with
          regions := (m.regions.map fun r => (r.1, { r.2 with gen := if r.1 < m.boundary then r.2.gen else 0 })).filter fun r =>
            r.2.gen != 0 || !r.2.poison.isEmpty
          master := m.masterNew, masterNew := [], drawnAt := m.drawnNew, masterRunning := false, boundary := 0
          masterRekeys := satInc 255 m.masterRekeys }
    else s

/-- Advance a region to its next generation; one that comes to 2^40 − 2^20 asks for a master rekey (R667). -/
def nextGen (s : State) (r : Nat) : State :=
  let g := ((regionOf s r).gen + 1) % 2 ^ 40
  let s := modRegion s r fun x => { x with gen := g }
  if g = 2 ^ 40 - 2 ^ 20 then masterRequest s else s

/-- REGION_SWEEP_COMPLETE (R664, R665, R668): the oldest region rekey ends; with none, the master rekey passes the region
at its boundary. -/
def execRegionSweepComplete (s : State) : Host.Outcome State Fault Refusal :=
  .next <| match s.mec.sweeps with
  | w :: rest =>
    if w.rebuild then s
    else
      let t := nextGen (modMec s fun m => { m with sweeps := rest, regionRekeys := satInc 0xFFFFFF m.regionRekeys }) w.region
      startRebuilds (sweepLines s.mec (fun l => regionOfLine l == w.region) t) 8
  | [] =>
    if s.mec.masterRunning = true ∧ s.mec.boundary < s.variant.regions then
      let b := s.mec.boundary
      let t := modMec (modRegion s b fun x => { x with gen := 0 }) fun m =>
        { m with boundary := b + 1, regionRekeys := satInc 0xFFFFFF m.regionRekeys }
      sweepLines s.mec (fun l => regionOfLine l == b) t
    else s

/-- REGION_REBUILD_COMPLETE (R671): sweep and refill are complete. -/
def execRegionRebuildComplete (s : State) : Host.Outcome State Fault Refusal :=
  .next <| match s.mec.sweeps with
  | w :: rest =>
    if w.rebuild then
      let s := dropLines s fun l => regionOfLine l == w.region && linePoisoned s l
      let t := nextGen (modRegion s w.region fun x => { x with poison := [] }) w.region
      startRebuilds (modMec (sweepLines s.mec (fun l => regionOfLine l == w.region) t) fun m =>
        { m with sweeps := rest, regionRebuilds := satInc 65535 m.regionRebuilds }) 8
    else s
  | [] => s

/-- Entries without a reply for the requesters of the last 60 s (R677). -/
def recreated (s : State) : List Retained :=
  (s.ksc.tuples.filter fun t => decide (now s < t.2.2.2 + 60 * tickS)).map fun t =>
    { sess := t.1.sess, reqId := t.1.reqId, digest := t.1.digest, mirrored := true, orphan := some (t.2.1, t.2.2.1) }

/-- FULL_REBUILD_COMPLETE (R676 to R678). -/
def execFullRebuildComplete (ok : Bool) (s : State) : Host.Outcome State Fault Refusal :=
  .next <|
    let s := drawDue s
    if s.mec.paused = false ∨ s.mec.masterDue = true then s
    else if ok = false then enterHoldWater (modMec s fun m => { m with paused := false, masterDue := false }) fcRebuildFail
    else
      let s := modMec s fun m => { m with paused := false, regions := [], dram := [] }
      let s := { s with net := { s.net with retention := recreated s } }
      if serves s then (resyncOrder s).foldl (startResync true) s else s

/-- A write of 1 to `commit` (R686, R688). -/
def apuCommitRequest (s : State) : State :=
  if s.apu.pending then setBit s 0x000E0008 3
  else { s with apu := { s.apu with
    prev := s.apu.active, active := s.apu.shadow, epoch := (s.apu.epoch + 1) % 65536, pending := true } }

/-- APU_COMMIT (R686, R688). -/
def execApuCommit (s : State) : Host.Outcome State Fault Refusal := .next (apuCommitRequest s)

/-- APU_COMMIT_COMPLETE (R687, R688): no access of the previous epoch remains. -/
def execApuCommitComplete (s : State) : Host.Outcome State Fault Refusal :=
  .next { s with apu := { s.apu with prev := [], pending := false } }

end Sys2Proof.Machine
end

