-- ==== Sys2Proof/Machine/CoreStep.lean ====
section
/-! DEFINITION. One Zynfer instruction on one core (chapters 03 and 04): the order of fault checks (Table 4.11), strokes,
cycles, loops, control flow, and stalls on results that are still pending (R211). An instruction that stalls leaves the
state as it is; so does one that the core's program counter does not name (log 1). -/

namespace Sys2Proof.Machine

/-- How control leaves an instruction. -/
inductive Flow where
  | seq
  /-- a transfer; `keep` says that it leaves an active loop active wherever it goes (R195) -/
  | go (n : Nat) (keep : Bool)
deriving DecidableEq, Repr

/-- A result that comes later (Table 4.12): after so many cycles, or, of a scratch load, to the next 5 instructions. -/
inductive Late where
  | no
  | cycles (d : GReg) (n : Nat)
  | scr (d : GReg)

/-- An instruction that completed: `extra` cycles beyond the first, and the register whose value comes later. -/
structure Done where
  s : State
  flow : Flow := .seq
  extra : Nat := 0
  late : Late := .no

/-- What an instruction does once it may issue. -/
inductive Effect where
  | stall
  | fault (s : State) (st : Nat)
  /-- its memory read does not return data (R143) -/
  | lost (m : MemEvent)
  | next (d : Done)
  /-- it ends or parks its chain -/
  | ends (s : State) (finish : State → State)

/-- A later write to a register supersedes a result that is still pending for it (log 19). -/
def supersede (k : Core) (d : GReg) : Core :=
  { k with
    pendG := k.pendG.map fun p =>
      { p with
        reg := if p.reg = d then 0 else p.reg
        second := match p.second with
          | some w => if w.1 = d then none else some w
          | none => none }
    pendK := k.pendK.map fun p => { p with gs := if p.gs = d then 0 else p.gs }
    avail := alDel k.avail d.val
    scrLate := alDel k.scrLate d.val }

/-- Write a general register. -/
def wr (s : State) (c : CoreId) (d : GReg) (v : Word) : State :=
  let k := supersede (s.core c) d
  s.setCore c { k with ctx := k.ctx.wg d v }

/-- Value of a general register of core `c`. -/
def rd (s : State) (c : CoreId) (r : GReg) : Word := (s.core c).ctx.rg r

/-- General registers that an operation reads. -/
def Op.sources : Op → List GReg
  | .reg _ _ a b | .mul _ _ a b => [a, b]
  | .nop | .ret | .jmp _ _ | .stat _ _ => []
  | .jr a | .callr a | .imm _ _ a _ _ | .sh _ _ a _ | .loop a _ => [a]
  | .mem _ st _ d a _ _ => if st then [a, d] else [a]
  | .br _ a b _ _ => [a, b]
  | .key _ _ _ g _ => [g]
  | .svc _ _ a b => [a, b]

/-- A result for the register is pending (R211). -/
def pendingReg (k : Core) (r : GReg) : Bool :=
  r != 0 && (k.pendG.any (fun p => p.reg == r || p.second.any (fun w => w.1 == r)) || k.pendK.any (fun p => p.gs == r))

/-- A handle for the k register is pending (R211). -/
def pendingKey (k : Core) (r : KReg) : Bool := k.pendK.any fun p => p.kd == some r

/-- Handle registers that an operation reads. -/
def Op.handles : Op → List KReg
  | .key f kd ka _ _ => (if f.uses.2.1 then [ka] else []) ++ (if f = .kwrap then [kd] else [])
  | _ => []

/-- The operation has a prefix. -/
def Op.prefixed : Op → Bool
  | .imm _ _ _ p _ | .mem _ _ _ _ _ p _ | .br _ _ _ p _ => p
  | _ => false

/-- Cycles that the core waits for the operation's sources (Table 4.12). -/
def sourceStall (k : Core) (op : Op) : Nat :=
  (Op.sources op).foldl (fun n r =>
    max n (max ((alGet k.avail r.val).getD 0 - k.cycles) (if (alGet k.scrLate r.val).isSome then 5 else 0))) 0

/-- One instruction that read `reads` has issued: a scratch result that it waited for has come (Table 4.12). -/
def ageScr (l : List (Nat × Nat)) (reads : List GReg) : List (Nat × Nat) :=
  (l.filter fun p => decide (1 < p.2) && !reads.any fun r => r.val == p.1).map fun p => (p.1, p.2 - 1)

/-- Program counter and loop after an instruction of `len` words at `pc` that did not transfer control (R194): its words
take in the body's last word. -/
def seqNext (x : Ctx) (len : Nat) : Nat × Option Loop :=
  match x.loop with
  | some l =>
    if x.pc ≤ l.last ∧ l.last < x.pc + len then
      if 1 < l.count.toNat then (l.top, some { l with count := l.count - 1 }) else (l.last + 1, none)
    else (x.pc + len, some l)
  | none => (x.pc + len, none)

/-- Set the program counter and loop; the end of the code is a fall-through (R188) unless the budget is spent (R189). -/
def moveTo (s : State) (c : CoreId) (pc : Nat) (l : Option Loop) : State :=
  let s := modCtx s c fun x => { x with pc := pc, loop := l }
  match (s.core c).item with
  | none => s
  | some x =>
    if x.code.length ≤ pc ∧ x.strokes < x.budget then faultChain s c St.illegalInstr x.code.length else s

/-- Control leaves an instruction of `len` words. -/
def leave (s : State) (c : CoreId) (len : Nat) (f : Flow) : State :=
  let x := (s.core c).ctx
  match f with
  | .seq => let (pc, l) := seqNext x len; moveTo s c pc l
  | .go n keep => moveTo s c n (x.loop.filter fun l => keep || decide (l.top ≤ n ∧ n ≤ l.last))

/-- Count a stroke (R133). -/
def stroke (s : State) (c : CoreId) : State := modItem s c fun x => { x with strokes := x.strokes + 1 }

/-- Add the issue cycles of an instruction that read `reads`, and when its late result is usable. -/
def addCycles (s : State) (c : CoreId) (n : Nat) (reads : List GReg) (late : Late) : State :=
  let k := s.core c
  match k.item with
  | none => s
  | some _ =>
    let t := k.cycles + n
    let old := ageScr k.scrLate reads
    s.setCore c { k with
      cycles := t
      avail := match late with
        | .cycles r m => if r = 0 then k.avail else alSet k.avail r.val (t + m)
        | _ => k.avail
      scrLate := match late with
        | .scr r => if r = 0 then old else alSet old r.val 5
        | _ => old }

/-! ### The program cache (R151, R310; log 98) -/

/-- The lines that bytes `off` to `off + len - 1` of a section of the item's image lie in. -/
def progLines (x : Item) (const : Bool) (off len : Nat) : List PLine :=
  match x.image with
  | none => []
  | some im => imageLines im const off len

/-- Bytes of the instruction at word `pc`: a prefix takes the word after it along (R162). -/
def fetchBytes (x : Item) (pc : Nat) : Nat := if (x.code.getD pc 0) / 2 ^ 26 % 64 = 0x3F ∧ pc + 1 < x.code.length then 8 else 4

/-- The lines of the core's next instruction. -/
def fetchLines (s : State) (c : CoreId) : List PLine :=
  match (s.core c).item with
  | none => []
  | some x => progLines x false (4 * (s.core c).ctx.pc) (fetchBytes x (s.core c).ctx.pc)

/-- What an access to program lines meets: DRAM only where one of them is not in the crew's cache. -/
def progEvent (s : State) (crew : Nat) (l : List PLine) (m : MemEvent) : MemEvent :=
  if l.all (fun p => (vget s.pcache crew {}).lines.contains p) then .ok else m

/-- The crew's cache fills the missing lines. -/
def fillProg (s : State) (crew : Nat) (l : List PLine) : State :=
  { s with pcache := vset s.pcache crew (l.foldl (fillLine (pinsOf (cfgV s))) (vget s.pcache crew {})) }

/-- An access to program lines that returns data. -/
def progMeets (s : State) (crew : Nat) (l : List PLine) (m : MemEvent) : State :=
  fillProg (memMeets s (progEvent s crew l m)) crew l

/-- What the fetch meets. -/
def fetchEvent (s : State) (i : Issue) : MemEvent := progEvent s (crewOf i.core) (fetchLines s i.core) i.fetch

/-- The state after a fetch that returns data. -/
def fetched (s : State) (i : Issue) : State := progMeets s (crewOf i.core) (fetchLines s i.core) i.fetch

/-- A fetch that returns nothing: it waits for a refill that runs, or it ends the chain (R143, R670, R672). -/
def lostFetch (s : State) (i : Issue) : State :=
  if memWaits s (fetchEvent s i) then s else memEndChain (memMeets s (fetchEvent s i)) i.core

/-- One instruction (Table 4.11): the budget, the fetch, the encoding, pending sources, then `act` on the state with the
stroke counted, the item as it was, and the instruction's length. -/
def runOp (i : Issue) (op : Op) (s : State) (act : State → Item → Nat → Effect) : State :=
  let c := i.core
  let k := s.core c
  match k.item with
  | none => s
  | some x =>
    if x.budget ≤ x.strokes then s
    else if MemEvent.readable (fetchEvent s i) = false then lostFetch s i
    else match decodeAt x.code k.ctx.pc with
      | .op o len =>
        if o ≠ op then s
        else if (Op.sources op).any (pendingReg k) || (Op.handles op).any (pendingKey k) then s
        else
          let n := 1 + sourceStall k op + b2n (Op.prefixed op)
          let r := Op.sources op
          match act (stroke (fetched s i) c) x len with
          | .stall => s
          | .fault s st => faultChain (addCycles s c n r .no) c st k.ctx.pc
          | .lost m => memEndChain (memMeets (stroke (fetched s i) c) m) c
          | .next d => leave (addCycles d.s c (n + d.extra) r d.late) c len d.flow
          | .ends s f => f (addCycles s c n r .no)
      | _ => s

/-- A transfer to a signed word offset (R187). -/
def transfer (s : State) (x : Item) (target : Int) (keep : Bool) (extra : Nat) : Effect :=
  if 0 ≤ target ∧ target < x.code.length then .next { s := s, flow := .go target.toNat keep, extra := extra }
  else .fault s St.illegalInstr

/-- A transfer that happens also changes its core's context; one that faults pushes and pops nothing (R187, R208). -/
def Effect.andCtx (e : Effect) (c : CoreId) (f : Ctx → Ctx) : Effect :=
  match e with
  | .next d => .next { d with s := modCtx d.s c f }
  | e => e

/-- Push a return offset (R182, R183). -/
def pushReturn (n : Nat) (x : Ctx) : Ctx := { x with stack := n :: x.stack }

end Sys2Proof.Machine
end

