-- ==== Sys2Proof/Machine/CoreAlu.lean ====
section
/-! DEFINITION. Register, multiply, divide and immediate instructions, shifts and `STAT` (chapter 04). -/

namespace Sys2Proof.Machine

/-- A register operation (Table 4.4). -/
def runReg (i : Issue) (f : RegOp) (d a b : GReg) (s : State) : State :=
  runOp i (.reg f d a b) s fun s _ _ => .next { s := wr s i.core d (regResult f (rd s i.core a) (rd s i.core b)) }

/-- A multiply or divide (Tables 4.5 and 4.12). -/
def runMul (i : Issue) (f : MulOp) (d a b : GReg) (s : State) : State :=
  let div := match f with | .div | .divu | .rem | .remu => true | _ => false
  runOp i (.mul f d a b) s fun s _ _ =>
    .next { s := wr s i.core d (mulResult f (rd s i.core a) (rd s i.core b))
            extra := if div then 65 else 0, late := if div then .no else .cycles d 2 }

/-- An immediate operation (Table 4.6). -/
def runImm (i : Issue) (f : ImmOp) (d a : GReg) (p : Bool) (v : BitVec 32) (s : State) : State :=
  runOp i (.imm f d a p v) s fun s _ _ => .next { s := wr s i.core d (immResult f (rd s i.core a) p v) }

/-- A shift by immediate (R173). -/
def runSh (i : Issue) (f : ShOp) (d a : GReg) (n : BitVec 6) (s : State) : State :=
  runOp i (.sh f d a n) s fun s _ _ => .next { s := wr s i.core d (shResult f (rd s i.core a) n) }

/-- `CS_KIND` (Table 3.3). -/
def kindCode (x : Item) : Nat :=
  match x.origin with
  | .host | .sample => if x.conts = 0 then 0 else 3
  | .posted => if x.conts = 0 then 1 else 4
  | .delayed => if x.conts = 0 then 2 else 4

/-- Core status register of an index (Table 3.3). -/
def coreStatus (c : CoreId) (x : Item) (idx : Nat) : Nat :=
  match idx with
  | 0 => c.val + crewOf c * 64
  | 1 => kindCode x
  | 2 => x.inst % 4096 + x.dom % 8192 * 65536
  | 3 => x.queue % 16384 + x.cls % 4 * 65536
  | 4 => if x.origin = .host ∨ x.origin = .sample then x.reqId else 0
  | 5 => if x.cls = 0 then x.deadline else 0
  | 6 => x.snap
  | 7 => x.budget - x.strokes
  | 8 => x.conts
  | 9 => x.csLast
  | 10 => match x.image with
    | some im => im.image % 2 ^ 32 + im.version % 2 ^ 32 * 2 ^ 32
    | none => 0
  | _ => 0

/-- ADD (Table 4.4). -/
def execAdd (i : Issue) (d a b : GReg) (s : State) : Host.Outcome State Fault Refusal := .next (runReg i .add d a b s)

/-- SUB (Table 4.4). -/
def execSub (i : Issue) (d a b : GReg) (s : State) : Host.Outcome State Fault Refusal := .next (runReg i .sub d a b s)

/-- AND (Table 4.4). -/
def execAnd (i : Issue) (d a b : GReg) (s : State) : Host.Outcome State Fault Refusal := .next (runReg i .and d a b s)

/-- OR (Table 4.4). -/
def execOr (i : Issue) (d a b : GReg) (s : State) : Host.Outcome State Fault Refusal := .next (runReg i .or d a b s)

/-- XOR (Table 4.4). -/
def execXor (i : Issue) (d a b : GReg) (s : State) : Host.Outcome State Fault Refusal := .next (runReg i .xor d a b s)

/-- ANDN (Table 4.4). -/
def execAndn (i : Issue) (d a b : GReg) (s : State) : Host.Outcome State Fault Refusal := .next (runReg i .andn d a b s)

/-- ORN (Table 4.4). -/
def execOrn (i : Issue) (d a b : GReg) (s : State) : Host.Outcome State Fault Refusal := .next (runReg i .orn d a b s)

/-- XNOR (Table 4.4). -/
def execXnor (i : Issue) (d a b : GReg) (s : State) : Host.Outcome State Fault Refusal := .next (runReg i .xnor d a b s)

/-- SLL (Table 4.4). -/
def execSll (i : Issue) (d a b : GReg) (s : State) : Host.Outcome State Fault Refusal := .next (runReg i .sll d a b s)

/-- SRL (Table 4.4). -/
def execSrl (i : Issue) (d a b : GReg) (s : State) : Host.Outcome State Fault Refusal := .next (runReg i .srl d a b s)

/-- SRA (Table 4.4). -/
def execSra (i : Issue) (d a b : GReg) (s : State) : Host.Outcome State Fault Refusal := .next (runReg i .sra d a b s)

/-- ROL (Table 4.4). -/
def execRol (i : Issue) (d a b : GReg) (s : State) : Host.Outcome State Fault Refusal := .next (runReg i .rol d a b s)

/-- ROR (Table 4.4). -/
def execRor (i : Issue) (d a b : GReg) (s : State) : Host.Outcome State Fault Refusal := .next (runReg i .ror d a b s)

/-- SLT (Table 4.4). -/
def execSlt (i : Issue) (d a b : GReg) (s : State) : Host.Outcome State Fault Refusal := .next (runReg i .slt d a b s)

/-- SLTU (Table 4.4). -/
def execSltu (i : Issue) (d a b : GReg) (s : State) : Host.Outcome State Fault Refusal := .next (runReg i .sltu d a b s)

/-- MIN (Table 4.4). -/
def execMin (i : Issue) (d a b : GReg) (s : State) : Host.Outcome State Fault Refusal := .next (runReg i .min d a b s)

/-- MAX (Table 4.4). -/
def execMax (i : Issue) (d a b : GReg) (s : State) : Host.Outcome State Fault Refusal := .next (runReg i .max d a b s)

/-- MINU (Table 4.4). -/
def execMinu (i : Issue) (d a b : GReg) (s : State) : Host.Outcome State Fault Refusal := .next (runReg i .minu d a b s)

/-- MAXU (Table 4.4). -/
def execMaxu (i : Issue) (d a b : GReg) (s : State) : Host.Outcome State Fault Refusal := .next (runReg i .maxu d a b s)

/-- CLZ (Table 4.4). -/
def execClz (i : Issue) (d a : GReg) (s : State) : Host.Outcome State Fault Refusal := .next (runReg i .clz d a 0 s)

/-- CTZ (Table 4.4). -/
def execCtz (i : Issue) (d a : GReg) (s : State) : Host.Outcome State Fault Refusal := .next (runReg i .ctz d a 0 s)

/-- POPC (Table 4.4). -/
def execPopc (i : Issue) (d a : GReg) (s : State) : Host.Outcome State Fault Refusal := .next (runReg i .popc d a 0 s)

/-- BSWAP (Table 4.4). -/
def execBswap (i : Issue) (d a : GReg) (s : State) : Host.Outcome State Fault Refusal := .next (runReg i .bswap d a 0 s)

/-- BSWAPW (Table 4.4). -/
def execBswapw (i : Issue) (d a : GReg) (s : State) : Host.Outcome State Fault Refusal := .next (runReg i .bswapw d a 0 s)

/-- BSWAPH (Table 4.4). -/
def execBswaph (i : Issue) (d a : GReg) (s : State) : Host.Outcome State Fault Refusal := .next (runReg i .bswaph d a 0 s)

/-- SEXTB (Table 4.4). -/
def execSextb (i : Issue) (d a : GReg) (s : State) : Host.Outcome State Fault Refusal := .next (runReg i .sextb d a 0 s)

/-- SEXTH (Table 4.4). -/
def execSexth (i : Issue) (d a : GReg) (s : State) : Host.Outcome State Fault Refusal := .next (runReg i .sexth d a 0 s)

/-- SEXTW (Table 4.4). -/
def execSextw (i : Issue) (d a : GReg) (s : State) : Host.Outcome State Fault Refusal := .next (runReg i .sextw d a 0 s)

/-- ZEXTW (Table 4.4). -/
def execZextw (i : Issue) (d a : GReg) (s : State) : Host.Outcome State Fault Refusal := .next (runReg i .zextw d a 0 s)

/-- MUL (Table 4.5). -/
def execMul (i : Issue) (d a b : GReg) (s : State) : Host.Outcome State Fault Refusal := .next (runMul i .mul d a b s)

/-- MULH (Table 4.5). -/
def execMulh (i : Issue) (d a b : GReg) (s : State) : Host.Outcome State Fault Refusal := .next (runMul i .mulh d a b s)

/-- MULHU (Table 4.5). -/
def execMulhu (i : Issue) (d a b : GReg) (s : State) : Host.Outcome State Fault Refusal := .next (runMul i .mulhu d a b s)

/-- MULHSU (Table 4.5). -/
def execMulhsu (i : Issue) (d a b : GReg) (s : State) : Host.Outcome State Fault Refusal := .next (runMul i .mulhsu d a b s)

/-- DIV (Table 4.5). -/
def execDiv (i : Issue) (d a b : GReg) (s : State) : Host.Outcome State Fault Refusal := .next (runMul i .div d a b s)

/-- DIVU (Table 4.5). -/
def execDivu (i : Issue) (d a b : GReg) (s : State) : Host.Outcome State Fault Refusal := .next (runMul i .divu d a b s)

/-- REM (Table 4.5). -/
def execRem (i : Issue) (d a b : GReg) (s : State) : Host.Outcome State Fault Refusal := .next (runMul i .rem d a b s)

/-- REMU (Table 4.5). -/
def execRemu (i : Issue) (d a b : GReg) (s : State) : Host.Outcome State Fault Refusal := .next (runMul i .remu d a b s)

/-- ADDI (Table 4.6). -/
def execAddi (i : Issue) (d a : GReg) (p : Bool) (v : BitVec 32) (s : State) : Host.Outcome State Fault Refusal :=
  .next (runImm i .addi d a p v s)

/-- ANDI (Table 4.6). -/
def execAndi (i : Issue) (d a : GReg) (p : Bool) (v : BitVec 32) (s : State) : Host.Outcome State Fault Refusal :=
  .next (runImm i .andi d a p v s)

/-- ORI (Table 4.6). -/
def execOri (i : Issue) (d a : GReg) (p : Bool) (v : BitVec 32) (s : State) : Host.Outcome State Fault Refusal :=
  .next (runImm i .ori d a p v s)

/-- XORI (Table 4.6). -/
def execXori (i : Issue) (d a : GReg) (p : Bool) (v : BitVec 32) (s : State) : Host.Outcome State Fault Refusal :=
  .next (runImm i .xori d a p v s)

/-- SLTI (Table 4.6). -/
def execSlti (i : Issue) (d a : GReg) (p : Bool) (v : BitVec 32) (s : State) : Host.Outcome State Fault Refusal :=
  .next (runImm i .slti d a p v s)

/-- SLTIU (Table 4.6). -/
def execSltiu (i : Issue) (d a : GReg) (p : Bool) (v : BitVec 32) (s : State) : Host.Outcome State Fault Refusal :=
  .next (runImm i .sltiu d a p v s)

/-- LIH (Table 4.6). -/
def execLih (i : Issue) (d a : GReg) (p : Bool) (v : BitVec 32) (s : State) : Host.Outcome State Fault Refusal :=
  .next (runImm i .lih d a p v s)

/-- SLLI (R173). -/
def execSlli (i : Issue) (d a : GReg) (n : BitVec 6) (s : State) : Host.Outcome State Fault Refusal :=
  .next (runSh i .slli d a n s)

/-- SRLI (R173). -/
def execSrli (i : Issue) (d a : GReg) (n : BitVec 6) (s : State) : Host.Outcome State Fault Refusal :=
  .next (runSh i .srli d a n s)

/-- SRAI (R173). -/
def execSrai (i : Issue) (d a : GReg) (n : BitVec 6) (s : State) : Host.Outcome State Fault Refusal :=
  .next (runSh i .srai d a n s)

/-- RORI (R173). -/
def execRori (i : Issue) (d a : GReg) (n : BitVec 6) (s : State) : Host.Outcome State Fault Refusal :=
  .next (runSh i .rori d a n s)

/-- STAT (R119, R197). -/
def execStat (i : Issue) (d : GReg) (idx : BitVec 16) (s : State) : Host.Outcome State Fault Refusal :=
  .next <| runOp i (.stat d idx) s fun s x _ => .next { s := wr s i.core d (BitVec.ofNat 64 (coreStatus i.core x idx.toNat)) }

end Sys2Proof.Machine
end

