-- ==== Sys2Proof/Machine/CoreFlow.lean ====
section
/-! DEFINITION. Loads, stores, branches, jumps, calls, `LOOP`, and the two ways a program stops at its own fault: the stroke
budget and a reserved encoding (chapters 03 and 04). -/

namespace Sys2Proof.Machine

/-- Bytes of a width. -/
def Width.bytes : Width → Nat
  | .b => 1 | .h => 2 | .w => 4 | .d => 8

/-- Byte offset of an access (R176). -/
def memOffset (s : State) (c : CoreId) (a : GReg) (p : Bool) (off : BitVec 32) : Nat := (rd s c a + immS p off).toNat

/-- The refusal of a protection unit is counted (R138, R690). -/
def noteDenied (s : State) (c : CoreId) (x : Item) (sp : Space) (store : Bool) (off len : Nat) : State :=
  match faultRank s c x sp store off len, scrRefused s c x store off len with
  | some (4, _), some w =>
    apuRefused s
      { init := c.val, target := 96, priv := x.priv, dom := x.imageDom, kind := if store then .write else .read } w
  | _, _ => s

/-- Cycle added by a crossing access, and the latency of a load's result (Table 4.12). -/
def crossCost (sp : Space) (off len : Nat) : Nat := b2n (crosses (if sp = .scr then 32 else 8) off len)

/-- A load (R112 to R116, R176, R177). -/
def runLoad (i : Issue) (sp : Space) (wd : Width) (d a : GReg) (p : Bool) (off : BitVec 32) (m : MemEvent) (s : State) :
    State :=
  runOp i (.mem sp false wd d a p off) s fun s x _ =>
    let c := i.core
    let n := Width.bytes wd
    let o := memOffset s c a p off
    match accessFault s c x sp false o n with
    | some st => .fault (noteDenied s c x sp false o n) st
    | none =>
      if bytesBusy s c (rangeOf sp o n) then .stall
      else
        let l := if sp = .con then progLines x true o n else []
        let m := match sp with
          | .req => m
          | .con => progEvent s (crewOf c) l m
          | _ => .ok
        if MemEvent.readable m = false then if memWaits s m then .stall else .lost m
        else
          let s := fillProg (memMeets s m) (crewOf c) l
          .next { s := wr s c d (BitVec.ofNat 64 (leNat (readSpace s c x sp o n)))
                  extra := crossCost sp o n, late := if sp = .scr then .scr d else .cycles d 1 }

/-- A store (R112 to R116, R176, R178). -/
def runStore (i : Issue) (sp : Space) (wd : Width) (d a : GReg) (p : Bool) (off : BitVec 32) (s : State) : State :=
  runOp i (.mem sp true wd d a p off) s fun s x _ =>
    let c := i.core
    let n := Width.bytes wd
    let o := memOffset s c a p off
    match accessFault s c x sp true o n with
    | some st => .fault (noteDenied s c x sp true o n) st
    | none =>
      if bytesBusy s c (rangeOf sp o n) then .stall
      else .next { s := writeSpace s c sp o (leBytes n (rd s c d).toNat), extra := crossCost sp o n }

/-- A conditional branch (R181). -/
def runBr (i : Issue) (f : BrOp) (a b : GReg) (p : Bool) (off : BitVec 32) (s : State) : State :=
  runOp i (.br f a b p off) s fun s x _ =>
    let c := i.core
    if brHolds f (rd s c a) (rd s c b) then transfer s x ((s.core c).ctx.pc + brOffset p off) false 3
    else .next { s := s }

/-- Entries that the call return stack holds. -/
def stackDepth : Nat := 16

/-- `J` or `CALL` (R182, R185, R187). -/
def runJmp (i : Issue) (call : Bool) (off : BitVec 26) (s : State) : State :=
  runOp i (.jmp call off) s fun s x len =>
    let c := i.core
    let ctx := (s.core c).ctx
    let t := (ctx.pc : Int) + off.toInt
    if call then
      if stackDepth ≤ ctx.stack.length then .fault s St.callDepth
      else (transfer s x t true 1).andCtx c (pushReturn (ctx.pc + len))
    else transfer s x t false 1

/-- `JR` or `CALLR` (R183). -/
def runJr (i : Issue) (call : Bool) (a : GReg) (s : State) : State :=
  runOp i (if call then .callr a else .jr a) s fun s x len =>
    let c := i.core
    let ctx := (s.core c).ctx
    if call then
      if stackDepth ≤ ctx.stack.length then .fault s St.callDepth
      else (transfer s x (rd s c a).toNat true 2).andCtx c (pushReturn (ctx.pc + len))
    else transfer s x (rd s c a).toNat false 2

/-- `RET` (R184, R186). -/
def runRet (i : Issue) (s : State) : State :=
  runOp i .ret s fun s x _ =>
    match (s.core i.core).ctx.stack with
    | [] => .fault s St.callDepth
    | n :: rest => (transfer s x n true 1).andCtx i.core fun y => { y with stack := rest }

/-- `LOOP` (R190 to R193, R196). -/
def runLoop (i : Issue) (a : GReg) (e : BitVec 16) (s : State) : State :=
  runOp i (.loop a e) s fun s x _ =>
    let c := i.core
    let p := (s.core c).ctx.pc
    let n := rd s c a
    if x.code.length ≤ p + e.toNat - 1 then .fault s St.illegalInstr
    else if n = 0 then (transfer s x ((p + e.toNat : Nat) : Int) true 1).andCtx c fun y => { y with loop := none }
    else .next { s := modCtx s c fun y => { y with loop := some { count := n, top := p + 1, last := p + e.toNat - 1 } } }

/-- LDB (Table 4.3). -/
def execLdb (i : Issue) (sp : Space) (d a : GReg) (p : Bool) (off : BitVec 32) (m : MemEvent) (s : State) :
    Host.Outcome State Fault Refusal := .next (runLoad i sp .b d a p off m s)

/-- LDH (Table 4.3). -/
def execLdh (i : Issue) (sp : Space) (d a : GReg) (p : Bool) (off : BitVec 32) (m : MemEvent) (s : State) :
    Host.Outcome State Fault Refusal := .next (runLoad i sp .h d a p off m s)

/-- LDW (Table 4.3). -/
def execLdw (i : Issue) (sp : Space) (d a : GReg) (p : Bool) (off : BitVec 32) (m : MemEvent) (s : State) :
    Host.Outcome State Fault Refusal := .next (runLoad i sp .w d a p off m s)

/-- LDD (Table 4.3). -/
def execLdd (i : Issue) (sp : Space) (d a : GReg) (p : Bool) (off : BitVec 32) (m : MemEvent) (s : State) :
    Host.Outcome State Fault Refusal := .next (runLoad i sp .d d a p off m s)

/-- STB (Table 4.3). -/
def execStb (i : Issue) (sp : Space) (d a : GReg) (p : Bool) (off : BitVec 32) (s : State) :
    Host.Outcome State Fault Refusal := .next (runStore i sp .b d a p off s)

/-- STH (Table 4.3). -/
def execSth (i : Issue) (sp : Space) (d a : GReg) (p : Bool) (off : BitVec 32) (s : State) :
    Host.Outcome State Fault Refusal := .next (runStore i sp .h d a p off s)

/-- STW (Table 4.3). -/
def execStw (i : Issue) (sp : Space) (d a : GReg) (p : Bool) (off : BitVec 32) (s : State) :
    Host.Outcome State Fault Refusal := .next (runStore i sp .w d a p off s)

/-- STD (Table 4.3). -/
def execStd (i : Issue) (sp : Space) (d a : GReg) (p : Bool) (off : BitVec 32) (s : State) :
    Host.Outcome State Fault Refusal := .next (runStore i sp .d d a p off s)

/-- BEQ (Table 4.7). -/
def execBeq (i : Issue) (a b : GReg) (p : Bool) (off : BitVec 32) (s : State) : Host.Outcome State Fault Refusal :=
  .next (runBr i .eq a b p off s)

/-- BNE (Table 4.7). -/
def execBne (i : Issue) (a b : GReg) (p : Bool) (off : BitVec 32) (s : State) : Host.Outcome State Fault Refusal :=
  .next (runBr i .ne a b p off s)

/-- BLT (Table 4.7). -/
def execBlt (i : Issue) (a b : GReg) (p : Bool) (off : BitVec 32) (s : State) : Host.Outcome State Fault Refusal :=
  .next (runBr i .lt a b p off s)

/-- BGE (Table 4.7). -/
def execBge (i : Issue) (a b : GReg) (p : Bool) (off : BitVec 32) (s : State) : Host.Outcome State Fault Refusal :=
  .next (runBr i .ge a b p off s)

/-- BLTU (Table 4.7). -/
def execBltu (i : Issue) (a b : GReg) (p : Bool) (off : BitVec 32) (s : State) : Host.Outcome State Fault Refusal :=
  .next (runBr i .ltu a b p off s)

/-- BGEU (Table 4.7). -/
def execBgeu (i : Issue) (a b : GReg) (p : Bool) (off : BitVec 32) (s : State) : Host.Outcome State Fault Refusal :=
  .next (runBr i .geu a b p off s)

/-- J (R182). -/
def execJ (i : Issue) (off : BitVec 26) (s : State) : Host.Outcome State Fault Refusal := .next (runJmp i false off s)

/-- CALL (R182). -/
def execCall (i : Issue) (off : BitVec 26) (s : State) : Host.Outcome State Fault Refusal := .next (runJmp i true off s)

/-- JR (R183). -/
def execJr (i : Issue) (a : GReg) (s : State) : Host.Outcome State Fault Refusal := .next (runJr i false a s)

/-- CALLR (R183). -/
def execCallr (i : Issue) (a : GReg) (s : State) : Host.Outcome State Fault Refusal := .next (runJr i true a s)

/-- RET (R184). -/
def execRet (i : Issue) (s : State) : Host.Outcome State Fault Refusal := .next (runRet i s)

/-- NOP (Table 4.7). -/
def execNop (i : Issue) (s : State) : Host.Outcome State Fault Refusal := .next (runOp i .nop s fun s _ _ => .next { s := s })

/-- LOOP (R190). -/
def execLoop (i : Issue) (a : GReg) (e : BitVec 16) (s : State) : Host.Outcome State Fault Refusal := .next (runLoop i a e s)

/-- STROKE_BUDGET_EXHAUSTED (R134). -/
def execStrokeBudgetExhausted (c : CoreId) (s : State) : Host.Outcome State Fault Refusal :=
  .next <| match (s.core c).item with
  | some x => if x.budget ≤ x.strokes then faultChain s c St.strokeBudget (s.core c).ctx.pc else s
  | none => s

/-- RESERVED_ENCODING (R165, R207). -/
def execReservedEncoding (i : Issue) (s : State) : Host.Outcome State Fault Refusal :=
  .next <|
    let c := i.core
    match (s.core c).item with
    | none => s
    | some x =>
      if x.budget ≤ x.strokes then s
      else if MemEvent.readable (fetchEvent s i) = false then lostFetch s i
      else match decodeAt x.code (s.core c).ctx.pc with
        | .reserved => faultChain (stroke (fetched s i) c) c St.illegalInstr (s.core c).ctx.pc
        | .dangling => faultChain (fetched s i) c St.illegalInstr x.code.length
        | _ => s

end Sys2Proof.Machine
end

