-- ==== Sys2Proof/Machine/SvcBase.lean ====
section
/-! DEFINITION. What the service instructions share (chapter 05): parameter blocks and their faults, tickets, results that
are written later, and the two commands that write them. -/

namespace Sys2Proof.Machine

/-! ### Blocks and references -/

/-- The worst reference of a block (R180, R218): rank, status, reference, direction. -/
def worstRef (s : State) (c : CoreId) (x : Item) (rs : List (BufRef × Bool)) : Option ((Nat × Nat) × BufRef × Bool) :=
  rs.foldl (fun best p => match refFault s c x p.1 p.2, best with
    | some f, some b => if f.1 < b.1.1 then some (f, p) else some b
    | some f, none => some (f, p)
    | none, b => b) none

/-- A scratch access that the protection units refuse (R138). -/
def scratchAccess (c : CoreId) (x : Item) (store : Bool) : Access :=
  { init := c.val, target := 96, priv := x.priv, dom := x.imageDom, kind := if store then .write else .read }

/-- The fault of a block's references (R218), the refusal of a protection unit counted. -/
def refsEffect (s : State) (c : CoreId) (x : Item) (rs : List (BufRef × Bool)) : Option Effect :=
  match worstRef s c x rs with
  | none => none
  | some ((rank, st), r, store) =>
    let s := if rank = 4 then match scrRefused s c x store r.off r.len with
        | some w => apuRefused s (scratchAccess c x store) w
        | none => s
      else s
    some (.fault s st)

/-- A parameter block of `n` bytes whose offset `g` holds, with the references it uses: its faults in the order of R814
item 1, a stall while an earlier job still uses bytes that it names (R116, R220; log 37), then `act` on its offset and
bytes. -/
def withBlock (s : State) (c : CoreId) (x : Item) (g : GReg) (n : Nat) (refs : List Byte → List (BufRef × Bool))
    (act : Nat → List Byte → Effect) : Effect :=
  let off := (rd s c g).toNat
  match blockFault off n with
  | some st => .fault s st
  | none =>
    let b := Mem.read (s.core c).ldm off n
    let rs := refs b
    match refsEffect s c x rs with
    | some e => e
    | none =>
      if bytesBusy s c (rangeOf .ldm off n) || rs.any (fun r => r.1.valid && (pendingWrites (s.core c)).any r.1.overlaps) then
        .stall
      else act off b

/-! ### Results -/

/-- A register result that is written later (R211). -/
def pushG (s : State) (c : CoreId) (p : PendG) : State :=
  let k := supersede (s.core c) p.reg
  s.setCore c { k with pendG := k.pendG ++ [p] }

/-- A status result (R213). -/
def pendStatus (s : State) (c : CoreId) (d : GReg) (st : Nat) : State :=
  pushG s c { reg := d, value := BitVec.ofNat 64 st, status := st }

/-- `CS_LAST` (R214). -/
def setLast (s : State) (c : CoreId) (st : Nat) : State := modItem s c fun x => { x with csLast := st }

/-- A status written at once. -/
def statusNow (s : State) (c : CoreId) (d : GReg) (st : Nat) : State :=
  setLast (wr s c d (BitVec.ofNat 64 st)) c st

/-- Write a list of byte strings to LDM. -/
def ldmWrites (s : State) (c : CoreId) (l : List (Nat × List Byte)) : State :=
  l.foldl (fun s w => writeSpace s c .ldm w.1 w.2) s

/-- Instance of the item on a core. -/
def instOn (s : State) (c : CoreId) : Option Nat := (s.core c).item.map (·.inst)

/-- Take the first entry that `p` picks. -/
def takeFirst {α : Type} (p : α → Bool) : List α → Option (α × List α)
  | [] => none
  | a :: l => if p a then some (a, l) else (takeFirst p l).map fun r => (r.1, a :: r.2)

/-- Write a completed result. -/
def writeG (s : State) (c : CoreId) (p : PendG) : State :=
  let s := modCtx (ldmWrites s c p.ldm) c fun x =>
    let x := x.wg p.reg p.value
    match p.second with
    | some w => x.wg w.1 w.2
    | none => x
  setLast (countStatus s (p.target <|> instOn s c) p.status) c p.status

/-- A result is ready: an `RNG` draws its bytes then (R256). -/
def finishG (s : State) (c : CoreId) (p : PendG) : Option State :=
  match p.wait with
  | .ready => some (writeG s c p)
  | .drbg => match p.rngLen with
    | some (off, n) => match drbgDraw s (crewOf c) n with
      | some (b, s) => some (writeG s c { p with ldm := [(off, b)] })
      | none => none
    | none => none
  | _ => none

/-- RNG_WAIT_TIMEOUT (R257): the oldest `RNG` that waits for its DRBG. -/
def execRngWaitTimeout (c : CoreId) (s : State) : Host.Outcome State Fault Refusal :=
  .next <|
    let k := s.core c
    match takeFirst (fun p : PendG => p.wait == .drbg) k.pendG with
    | some (p, rest) =>
      if drbgReady s (crewOf c) || !drawLate s p.asked then s
      else
        let st := St.rngUnavailable
        s.setCore c { k with pendG :=
          { p with wait := .ready, rngLen := none, status := st, value := BitVec.ofNat 64 st } :: rest }
    | none => s

/-! ### Tickets -/

/-- Unreleased tickets of a chain (R221). -/
def ticketLimit : Nat := 32

/-- The next ticket of a kind. -/
def newTicket (s : State) (kind : Nat) : Nat × State :=
  (kind * 2 ^ 60 + s.dsp.nextTicket, { s with dsp := { s.dsp with nextTicket := s.dsp.nextTicket + 1 } })

/-- Give the chain a ticket and write it to `d`; `fail` is a status decided at issue (R223). -/
def giveTicket (s : State) (c : CoreId) (d : GReg) (num : Nat) (fail : Option Nat) : State :=
  wr (modItem s c fun x => { x with tickets := x.tickets ++ [{ num := num, fail := fail }] }) c d (BitVec.ofNat 64 num)

/-- A job that failed at issue. -/
def failedTicket (s : State) (c : CoreId) (d : GReg) (kind st : Nat) : State :=
  let (n, s) := newTicket s kind
  giveTicket s c d n (some st)

/-- Add to the counts of Table 6.3. -/
def modC0 (s : State) (c : CoreId) (f : C0 → C0) : State := modItem s c fun x => { x with c0 := f x.c0 }

/-- The chain is not eligible for output comparison (R258). -/
def notEligible (s : State) (c : CoreId) : State := modItem s c fun x => { x with eligible := false }

/-- A `JCOMMIT` or `JABORT` of the chain waits for its key instructions (R819). -/
def txClosing (x : Item) : Bool := x.tx.any (·.closing)

/-- Lock is in force (R702). -/
def locked (s : State) : Bool := s.bin.lock

end Sys2Proof.Machine
end

