-- ==== Sys2Proof/Machine/SvcSym.lean ====
section
/-! DEFINITION. `CIPH`, `MACV`, `KMAC`, `HASH`, the check-value instructions, `WAIT`, `RNG` and `TIME` (chapter 05): their
issue checks in the order of R814. -/

namespace Sys2Proof.Machine

/-! ### Blocks (Table 5.5, R820) -/

/-- The block of Table 5.5. -/
def parseCiph (b : List Byte) : CiphBlk :=
  { mode := fieldAt b 0 1, dir := fieldAt b 1 1, k2 := fieldAt b 2 1, aux := fieldAt b 3 1, param := fieldAt b 4 4,
    src := refAt b 8, dst := refAt b 16, iv := refAt b 24, aad := refAt b 32, tagRef := refAt b 40,
    rsvd := leNat (slice b 48 16) }

/-- A format of PIN blocks. -/
def pinFormat (f : Nat) : Bool := f == 0 || f == 1 || f == 3 || f == 4

/-- Length of a PIN block. -/
def pinLen (f : Nat) : Nat := if f = 4 then 16 else 8

/-- Formats that need the PAN (R239). -/
def pinNeedsPan (f : Nat) : Bool := f != 1

/-- Block length that ECB and CBC need: that of ka's key where it is AES (log 38). -/
def lengthUnit (k : Option KeyRec) : Nat :=
  match k with
  | some k => if isAes k.attrs.alg then 16 else 8
  | none => 8

/-- Destination and source references do not partly overlap (R219). -/
def overlapFree (ws rs : List BufRef) : Bool := ws.all fun w => rs.all fun r => !partOverlap w r

/-- A tag length lies in a range. -/
def inRange (r : Nat × Nat) (n : Nat) : Bool := decide (r.1 ≤ n ∧ n ≤ r.2)

/-- Numerals of FF1 (Table 5.6). -/
def ff1Ok (radix len tweak : Nat) : Bool :=
  let n := numerals radix len
  decide (2 ≤ radix ∧ radix ≤ 65536 ∧ (radix ≤ 256 ∨ len % 2 = 0) ∧ 2 ≤ n ∧ n ≤ 256 ∧ 1000000 ≤ radix ^ n ∧ tweak ≤ 256)

/-- The fields of a `CIPH` block (R814 item 3). -/
def ciphFieldsOk (b : CiphBlk) (k : Option KeyRec) : Bool :=
  let len := b.src.len
  let alg := k.map (·.attrs.alg)
  let k2 := decide (b.mode = 11 ∨ b.k2 = 0) && decide (b.k2 < 16)
  let dir := if (1 ≤ b.mode ∧ b.mode ≤ 5) ∨ b.mode = 10 then decide (b.dir ≤ 1) else b.dir == 0
  let aux := if b.mode = 8 ∨ b.mode = 9 then b.aux == 1 || b.aux == 2
    else if b.mode = 11 then pinFormat (b.aux % 16) && pinFormat (b.aux / 16) else b.aux == 0
  let shape := match b.mode with
    | 1 => b.param == 0 && decide (len % lengthUnit k = 0 ∧ len ≤ 65536 ∧ len ≤ b.dst.len)
    | 2 => b.param == 0 && decide (len % lengthUnit k = 0 ∧ len ≤ 65536 ∧ len ≤ b.dst.len ∧ b.iv.len = lengthUnit k)
    | 3 | 4 => b.param == 0 && decide (len ≤ 65536 ∧ len ≤ b.dst.len ∧ b.iv.len = 16)
    | 5 => decide (len ≤ 65536 ∧ b.aad.len ≤ 65536 ∧ len ≤ b.dst.len ∧ b.iv.len = 12) &&
        (if b.dir = 0 then (b.param == 0 || b.param == 16) && decide (16 ≤ b.tagRef.len)
         else b.param == 0 && decide (12 ≤ b.tagRef.len ∧ b.tagRef.len ≤ 16))
    | 6 => (b.param == 0 || b.param == 16) && decide (len = 0 ∧ 1 ≤ b.aad.len ∧ b.aad.len ≤ 65536 ∧ b.iv.len = 12 ∧
        16 ≤ b.tagRef.len)
    | 7 => inRange (tagRange 7 alg) b.param && decide (len ≤ 65536 ∧ b.param ≤ b.tagRef.len)
    | 8 | 9 => inRange (tagRange b.mode alg) b.param && decide (1 ≤ len ∧ len ≤ 65536 ∧ b.param ≤ b.tagRef.len)
    | 10 => ff1Ok b.param len b.aad.len && decide (len ≤ b.dst.len)
    | 11 => b.param == 0 && decide (len = pinLen (b.aux % 16) ∧ pinLen (b.aux / 16) ≤ b.dst.len) &&
        (!(pinNeedsPan (b.aux % 16) || pinNeedsPan (b.aux / 16)) || decide (12 ≤ b.aad.len ∧ b.aad.len ≤ 19))
    | _ => false
  b.rsvd == 0 && k2 && dir && aux && shape && (ciphReads b ++ ciphWrites b).all BufRef.valid
    && overlapFree (ciphWrites b) (ciphReads b)

/-- The customisation string of KMAC128 and KMAC256 holds at most 256 bytes (R465). -/
def custOk (b : CiphBlk) : Bool := b.mode / 2 != 0x14 || decide (b.aad.len ≤ 256)

/-- The fields of a `MACV` block. -/
def macvFieldsOk (b : CiphBlk) (k : Option KeyRec) : Bool :=
  let len := b.src.len
  let aux := if b.mode = 8 ∨ b.mode = 9 then b.aux == 1 || b.aux == 2 else b.aux == 0
  let shape := if hashMode b.mode then decide (len ≤ 1048576)
    else match b.mode with
    | 6 => decide (len = 0 ∧ 1 ≤ b.aad.len ∧ b.aad.len ≤ 65536 ∧ b.iv.len = 12)
    | 7 => decide (len ≤ 65536)
    | 8 | 9 => decide (1 ≤ len ∧ len ≤ 65536)
    | _ => false
  b.rsvd == 0 && b.k2 == 0 && b.dir == 0 && b.param == 0 && aux && shape && (macvReads b).all BufRef.valid
    && custOk b && inRange (tagRange b.mode (k.map (·.attrs.alg))) b.tagRef.len

/-- The fields of a `KMAC` block. -/
def kmacFieldsOk (b : CiphBlk) : Bool :=
  hashMode b.mode && b.rsvd == 0 && b.k2 == 0 && b.dir == 0 && b.aux == 0 && inRange (tagRange b.mode none) b.param
    && decide (b.src.len ≤ 1048576 ∧ b.param ≤ b.dst.len) && (b.dst :: kmacReads b).all BufRef.valid
    && custOk b && overlapFree [b.dst] (kmacReads b)

/-! ### Key checks -/

/-- Usage bits that a `CIPH` mode needs. -/
def ciphUsage (b : CiphBlk) : List Nat :=
  if b.mode = 11 then [uPin] else if 6 ≤ b.mode ∧ b.mode ≤ 9 then [uMacGen]
  else if b.dir = 0 then [uEncrypt] else [uDecrypt]

/-- Keys that the chain's open transaction creates. -/
def inOwnTx (x : Item) (n : KeyName) : Bool := match x.tx with
  | some t => (createdKeys t).contains n
  | none => false

/-- Items 5 and 6 of R814 for `CIPH`. -/
def ciphLast (s : State) (x : Item) (b : CiphBlk) (k k2 : Option KeyRec) : Nat :=
  match k with
  | none => 0
  | some y =>
    if b.mode = 11 then
      let alg2 := match k2 with | some z => z.attrs.alg | none => 0
      if (b.aux / 16 ≠ 4 ∧ isAes alg2 = true) ∨ (b.aux / 16 = 4 ∧ isTdes alg2 = true) then St.paramInvalid
      else if k2.any (fun z => keyIdOf z.name == keyIdOf y.name) then St.keyPolicy else 0
    else if (b.mode = 5 ∨ b.mode = 6) ∧ b.dir = 0 then
      if spent s y then St.keySpent else if inOwnTx x y.name then St.journalState else 0
    else 0

/-- Items 2 to 6 of R814 for `CIPH`. -/
def ciphCheck (s : State) (x : Item) (b : CiphBlk) (k k2 : Option KeyRec) : Nat :=
  if locked s then St.tamperLock
  else if ciphFieldsOk b k = false then St.paramInvalid
  else
    let st := useCheck k eCph (ciphUsage b) (algSuits b.mode)
    if st ≠ 0 then st
    else
      let st2 := if b.mode = 11 then useCheck k2 eCph [uPin] (algSuits 11) else 0
      if st2 ≠ 0 then st2 else ciphLast s x b k k2

/-- The crew's engine for a mode. -/
def modeKind (m : Nat) : SymKind := if hashMode m then .hash else .cipher

/-- Engine bit of a mode. -/
def modeEngine (m : Nat) : Nat := if hashMode m then eHsh else eCph

/-- Items 2 to 6 of R814 for `MACV` and `KMAC`. -/
def macCheck (s : State) (fieldsOk : Bool) (b : CiphBlk) (k : Option KeyRec) (usage : Nat) : Nat :=
  if locked s then St.tamperLock
  else if fieldsOk = false then St.paramInvalid
  else useCheck k (modeEngine b.mode) [usage] (algSuits b.mode)

/-! ### Issue -/

/-- The job of an instruction on this core. -/
def newJob (c : CoreId) (x : Item) (num : Nat) (op : JobOp) (key : Option KeyRec) : SymJob :=
  { num := num, core := c, serial := x.serial, inst := x.inst, held := x.held, op := op, key := key }

/-- Count a job's blocks (C7). -/
def countBlocks (s : State) (c : CoreId) (k : SymKind) (j : SymJob) : State :=
  modC0 s c fun y => { y with blocks := y.blocks + c7Blocks k j }

/-- Issue a job that returns a ticket to `d`, once its checks gave `st` (R223, R445, R460). -/
def issueJob (s : State) (c : CoreId) (x : Item) (d : GReg) (kind : SymKind) (tk st : Nat) (op : JobOp)
    (key : Option KeyRec) : Effect :=
  if st ≠ 0 then .next { s := failedTicket s c d tk st }
  else match chooseEngine s kind (crewOf c) with
    | .stall => .stall
    | .offline => .next { s := failedTicket s c d tk St.engineAborted }
    | .engine e =>
      let (n, s) := newTicket s tk
      let j := newJob c x n op key
      .next { s := giveTicket (countBlocks (pushJob s kind e j) c kind j) c d n none }

/-- The chain has room for a ticket (R221). -/
def withTicket (s : State) (x : Item) (e : Effect) : Effect :=
  if ticketLimit ≤ x.tickets.length then .fault s St.illegalInstr else e

/-- CIPH (R236 to R241, R814, R820). -/
def execCiph (i : Issue) (ka : KReg) (gs g : GReg) (s : State) : Host.Outcome State Fault Refusal :=
  .next <| runOp i (.key .ciph 0 ka g gs) s fun s x _ =>
    let c := i.core
    withTicket s x <| withBlock s c x g 64
      (fun b => let p := parseCiph b; (ciphReads p).map (·, false) ++ (ciphWrites p).map (·, true)) fun _ blk =>
        let b := parseCiph blk
        let k := (s.core c).ctx.rk ka
        let r2 : KReg := Fin.ofNat 16 b.k2
        if b.mode = 11 ∧ b.k2 < 16 ∧ pendingKey (s.core c) r2 = true then .stall
        else
          let k2 := if b.mode = 11 then (s.core c).ctx.rk r2 else none
          let st := ciphCheck s x b k k2
          let free := (b.mode == 11 && b.aux / 16 != 0) || ((b.mode == 5 || b.mode == 6) && b.dir == 0)
          let s := if st = 0 ∧ free = true then notEligible s c else s
          issueJob s c x gs .cipher 1 st (.ciph b k2) k

/-- MACV (R238): a flag, written when the comparison ends. -/
def execMacv (i : Issue) (ka : KReg) (gs g : GReg) (s : State) : Host.Outcome State Fault Refusal :=
  .next <| runOp i (.key .macv 0 ka g gs) s fun s x _ =>
    let c := i.core
    withBlock s c x g 64 (fun b => (macvReads (parseCiph b)).map (·, false)) fun _ blk =>
      let b := parseCiph blk
      let k := (s.core c).ctx.rk ka
      let st := macCheck s (macvFieldsOk b k && decide (b.mode ≠ 0)) b k uMacVerify
      if st ≠ 0 then .next { s := pushG s c { reg := gs, status := st } }
      else
        let kind := modeKind b.mode
        match chooseEngine s kind (crewOf c) with
        | .stall => .stall
        | .offline => .next { s := pushG s c { reg := gs, status := St.engineAborted } }
        | .engine e =>
          let (n, s) := newTicket s (if kind = .hash then 2 else 1)
          let j := newJob c x n (.macv b) k
          .next { s := pushG (countBlocks (pushJob s kind e j) c kind j) c { reg := gs, wait := .job n } }

/-- KMAC (R243). -/
def execKmac (i : Issue) (ka : KReg) (gs g : GReg) (s : State) : Host.Outcome State Fault Refusal :=
  .next <| runOp i (.key .kmac 0 ka g gs) s fun s x _ =>
    let c := i.core
    withTicket s x <| withBlock s c x g 64
      (fun b => let p := parseCiph b; (kmacReads p).map (·, false) ++ [(p.dst, true)]) fun _ blk =>
        let b := parseCiph blk
        let k := (s.core c).ctx.rk ka
        issueJob s c x gs .hash 2 (macCheck s (kmacFieldsOk b) b k uMacGen) (.kmac b) k

/-- Algorithms of `HASH` (R242). -/
def hashAlg (a : Nat) : Bool := decide ((1 ≤ a ∧ a ≤ 3) ∨ (0x11 ≤ a ∧ a ≤ 0x14) ∨ a = 0x18 ∨ a = 0x19)

/-- HASH (R242). -/
def execHash (i : Issue) (d a : GReg) (s : State) : Host.Outcome State Fault Refusal :=
  .next <| runOp i (.svc .hash d a 0) s fun s x _ =>
    let c := i.core
    withTicket s x <| withBlock s c x a 32 (fun b => [(refAt b 8, false), (refAt b 16, true)]) fun _ blk =>
      let alg := fieldAt blk 0 1
      let out := fieldAt blk 4 4
      let src := refAt blk 8
      let dst := refAt blk 16
      let shake := alg == 0x18 || alg == 0x19
      let n := if shake then out else digestLen alg
      let ok := hashAlg alg && rsvdOk blk 1 3 && rsvdOk blk 24 8 && src.valid && dst.valid
        && decide (src.len ≤ 1048576 ∧ n ≤ dst.len) && overlapFree [dst] [src]
        && (if shake then decide (1 ≤ out ∧ out ≤ 65536) else out == 0)
      let st := if locked s then St.tamperLock else if ok then 0 else St.paramInvalid
      issueJob s c x d .hash 2 st (.hash alg n src dst) none

/-! ### Check values (R245 to R249) -/

/-- Context number of an operand value; none where R245 refuses it. -/
def cvContext (v : Word) (select : Bool) : Option Nat :=
  let n := v.toNat - (if select && bitOf v.toNat 8 then 256 else 0)
  if n ≤ 1 then some n else none

/-- The context has an outstanding update. -/
def cvBusy (s : State) (c : CoreId) (n : Nat) : Bool :=
  (jobsOf s c).any fun j => match j.op with
    | .cvupd m _ => m == n
    | _ => false

/-- Context `n` of a core. -/
def cvOf (s : State) (c : CoreId) (n : Nat) : CvCtx := vget s.cvctx (cvIndex c n) {}

/-- Replace a context. -/
def setCv (s : State) (c : CoreId) (n : Nat) (x : CvCtx) : State := { s with cvctx := vset s.cvctx (cvIndex c n) x }

/-- A `CVSET` block is refused unless its width lies within 8 to 64, its reserved bits are 0, its polynomial is odd, and no
parameter has a bit at or above the width (R468). -/
def cvBlockOk (b : List Byte) : Bool :=
  let w := fieldAt b 0 1
  decide (8 ≤ w ∧ w ≤ 64 ∧ fieldAt b 1 1 < 16) && rsvdOk b 2 6 && bitOf (fieldAt b 8 8) 0
    && decide (fieldAt b 8 8 < 2 ^ w ∧ fieldAt b 16 8 < 2 ^ w ∧ fieldAt b 24 8 < 2 ^ w)

/-- The context that a `CVSET` block describes (R246). -/
def parseCv (b : List Byte) : Option CvCtx :=
  let w := fieldAt b 0 1
  let f := fieldAt b 1 1
  if cvBlockOk b then
    let tag := fieldAt b 32 8
    let mode := f / 4
    let init := fieldAt b 16 8
    let x : CvCtx :=
      { width := w, reflIn := bitOf f 0, reflOut := bitOf f 1, tagMode := mode, poly := fieldAt b 8 8
        init := init, xorOut := fieldAt b 24 8, tag := tag
        reg := if mode = 1 then init ^^^ (tag % 2 ^ w) else init }
    some (if mode = 2 then { x with reg := crcBytes x x.reg (leBytes 8 tag) } else x)
  else none

/-- CVSET (R246). -/
def execCvset (i : Issue) (d a b : GReg) (s : State) : Host.Outcome State Fault Refusal :=
  .next <| runOp i (.svc .cvset d a b) s fun s x _ =>
    let c := i.core
    withBlock s c x b 40 (fun _ => []) fun _ blk =>
      match cvContext (rd s c a) false, parseCv blk with
      | some n, some y => if cvBusy s c n then .stall else .next { s := pendStatus (setCv s c n y) c d 0 }
      | _, _ => .next { s := pendStatus s c d St.paramInvalid }

/-- CVUPD (R247). -/
def execCvupd (i : Issue) (d a b : GReg) (s : State) : Host.Outcome State Fault Refusal :=
  .next <| runOp i (.svc .cvupd d a b) s fun s x _ =>
    let c := i.core
    withTicket s x <| withBlock s c x b 8 (fun blk => [(refAt blk 0, false)]) fun _ blk =>
      let src := refAt blk 0
      let n := cvContext (rd s c a) false
      let st := if locked s then St.tamperLock else if n.isSome && src.valid then 0 else St.paramInvalid
      issueJob s c x d .check 3 st (.cvupd (n.getD 0) src) none

/-- CVGET (R248). -/
def execCvget (i : Issue) (d a : GReg) (s : State) : Host.Outcome State Fault Refusal :=
  .next <| runOp i (.svc .cvget d a 0) s fun s _ _ =>
    let c := i.core
    let v := rd s c a
    match cvContext v true with
    | none => .next { s := pushG s c { reg := d, status := St.paramInvalid } }
    | some n =>
      if cvBusy s c n then .stall
      else
        let y := cvOf s c n
        .next { s := pushG s c { reg := d, value := BitVec.ofNat 64 (if bitOf v.toNat 8 then cvResult y else y.reg) } }

/-- CVPUT (R249). -/
def execCvput (i : Issue) (d a b : GReg) (s : State) : Host.Outcome State Fault Refusal :=
  .next <| runOp i (.svc .cvput d a b) s fun s _ _ =>
    let c := i.core
    match cvContext (rd s c a) false with
    | none => .next { s := pendStatus s c d St.paramInvalid }
    | some n =>
      if cvBusy s c n then .stall
      else
        let y := cvOf s c n
        .next { s := pendStatus (setCv s c n { y with reg := (rd s c b).toNat % 2 ^ y.width }) c d 0 }

/-! ### `WAIT`, `RNG`, `TIME` -/

/-- WAIT (R131, R222, R244). -/
def execWait (i : Issue) (d a : GReg) (s : State) : Host.Outcome State Fault Refusal :=
  .next <| runOp i (.svc .wait d a 0) s fun s x _ =>
    let c := i.core
    let n := (rd s c a).toNat
    let kind := n / 2 ^ 60
    if kind = 4 ∨ kind = 5 then .fault s St.illegalInstr
    else match x.tickets.find? fun t => t.num == n with
      | none => .next { s := statusNow s c d St.ticketUnknown }
      | some t => match t.done with
        | none => .stall
        | some st =>
          let s := modItem s c fun y => { y with tickets := y.tickets.filter fun t => t.num != n }
          .next { s := statusNow s c d st }

/-- RNG (R256): a length outside 1 to 4,096 gives `PARAM_INVALID` (log 39). -/
def execRng (i : Issue) (d a b : GReg) (s : State) : Host.Outcome State Fault Refusal :=
  .next <| runOp i (.svc .rng d a b) s fun s x _ =>
    let c := i.core
    let off := (rd s c a).toNat
    let n := (rd s c b).toNat
    if n = 0 ∨ 4096 < n then .next { s := pendStatus (notEligible s c) c d St.paramInvalid }
    else match accessFault s c x .ldm true off n with
      | some st => .fault s st
      | none =>
        if bytesBusy s c (rangeOf .ldm off n) then .stall
        else
          let s := modC0 (notEligible s c) c fun y => { y with rngBytes := y.rngBytes + n }
          .next { s := pushG s c { reg := d, rngLen := some (off, n), wait := .drbg, asked := now s } }

/-- The second word of a time sample (R205). -/
def timeWord (s : State) : Nat := s.mer.unc % 2 ^ 32 + servoCode s.mer.state * 2 ^ 32

/-- TIME (R67, R205). -/
def execTime (i : Issue) (d : GReg) (s : State) : Host.Outcome State Fault Refusal :=
  .next <| runOp i (.svc .time d 0 0) s fun s _ _ =>
    let c := i.core
    let k := supersede (s.core c) (d + 1)
    let s := s.setCore c k
    let r : PendG := { reg := d, value := BitVec.ofNat 64 s.mer.t, second := some (d + 1, BitVec.ofNat 64 (timeWord s)) }
    .next { s := pushG (notEligible s c) c r }

end Sys2Proof.Machine
end

