-- ==== Sys2Proof/Machine/SvcCalls.lean ====
section
/-! DEFINITION. `PKCALL` and `LTCALL` (R250 to R255): the copy of the inputs, screening, and the ticket. -/

namespace Sys2Proof.Machine

/-- The references of a call block with their directions: R218 exempts none of them. -/
def callUses (blk : List Byte) : List (BufRef × Bool) :=
  let r := callRefs blk
  (r.take 3).map (·, false) ++ (r.drop 3).map (·, true)

/-- A call that failed screening: a ticket, and a result in the output store that takes no place (R223, R251, R252). -/
def failedCall (s : State) (c : CoreId) (x : Item) (gs : GReg) (kind st off : Nat) (outs : List BufRef) : State × PoolDone :=
  let (n, s) := newTicket s kind
  (giveTicket s c gs n (some st),
    { num := n, serial := x.serial, inst := x.inst, status := st, blk := off, outs := outs, place := false })

/-- The job of a call. -/
def callJob (c : CoreId) (x : Item) (num off : Nat) (keyed : Bool) (key : Option KeyRec) (blk : List Byte)
    (ins : List (List Byte)) : PoolJob :=
  { num := num, core := c, serial := x.serial, inst := x.inst, keyed := keyed, op := fieldAt blk 0 2
    key := if keyed then key else none, ins := ins, blk := off, outs := (callRefs blk).drop 3 }

/-- A big-number job with its result spec, width and slots (Table 11.1, R481). -/
def bneJob (k : BneKind) (j : PoolJob) : PoolJob :=
  let w := k.width j.key j.ins
  { j with
    spec := if j.keyed && k.derives then parseSpec (j.ins.getD 1 []) (8 * ceilDiv w 8) else none
    width := w
    slots := k.slots }

/-- A lattice job with its result spec (Table 12.1, R505). -/
def lteJob (k : LteKind) (j : PoolJob) : PoolJob :=
  { j with spec := match k.specIn j.keyed with
      | some i => parseSpec (j.ins.getD i []) 256
      | none => none }

/-- A `PKCALL` past its copy (R251, R252, R258, R702). -/
def bneCall (s : State) (c : CoreId) (x : Item) (gs : GReg) (keyed : Bool) (key : Option KeyRec) (off : Nat)
    (blk : List Byte) (ins : List (List Byte)) : State :=
  let st := if locked s then St.tamperLock else screenBne s x.inst keyed key blk ins
  match (if st = 0 then bneKind (fieldAt blk 0 2) else none) with
  | none =>
    let s := if keyed then notEligible s c else s
    let (s, d) := failedCall s c x gs 4 st off ((callRefs blk).drop 3)
    { s with bne := { s.bne with done := s.bne.done ++ [d] } }
  | some k =>
    let (n, s) := newTicket s 4
    let j := bneJob k (callJob c x n off keyed key blk ins)
    let s := if keyed || bneDraws j != 0 then notEligible s c else s
    let s := giveTicket s c gs n none
    { s with bne := { s.bne with queue := s.bne.queue ++ [j] } }

/-- An `LTCALL` past its copy. -/
def lteCall (s : State) (c : CoreId) (x : Item) (gs : GReg) (keyed : Bool) (key : Option KeyRec) (off : Nat)
    (blk : List Byte) (ins : List (List Byte)) : State :=
  let own := match key with
    | some k => inOwnTx x k.name
    | none => false
  let st := if locked s then St.tamperLock else screenLte s x.inst keyed key own blk ins
  match (if st = 0 then lteKind (fieldAt blk 0 2) else none) with
  | none =>
    let (s, d) := failedCall s c x gs 5 st off ((callRefs blk).drop 3)
    { s with lte := { s.lte with done := s.lte.done ++ [d] } }
  | some k =>
    let (n, s) := newTicket s 5
    let j := lteJob k (callJob c x n off keyed key blk ins)
    let s := if k.draws then notEligible s c else s
    let s := giveTicket s c gs n none
    { s with lte := { s.lte with queue := s.lte.queue ++ [j] } }

/-- A call: its block, the stall and the copy of R250, then screening. -/
def runCall (i : Issue) (op : Op) (g : GReg) (s : State)
    (call : State → Item → Nat → List Byte → List (List Byte) → State) : State :=
  runOp i op s fun s x _ =>
    let c := i.core
    withTicket s x <| withBlock s c x g 64 callUses fun off blk =>
      let refs := (callRefs blk).take 3
      if refs.any (fun r => r.valid && bytesBusy s c r) then .stall
      else
        let ins := refs.map fun r => if r.valid then readRef s c x r else []
        let s := modC0 s c fun y => { y with calls := true }
        .next { s := call s x off blk ins }

/-- PKCALL_KEYED (R250 to R254, R258). -/
def execPkcallKeyed (i : Issue) (ka : KReg) (gs g : GReg) (s : State) : Host.Outcome State Fault Refusal :=
  .next <| runCall i (.key .pkKeyed 0 ka g gs) g s fun s x off blk ins =>
    bneCall s i.core x gs true ((s.core i.core).ctx.rk ka) off blk ins

/-- PKCALL_PUBLIC (R250 to R254). -/
def execPkcallPublic (i : Issue) (gs g : GReg) (s : State) : Host.Outcome State Fault Refusal :=
  .next <| runCall i (.key .pkPublic 0 0 g gs) g s fun s x off blk ins => bneCall s i.core x gs false none off blk ins

/-- LTCALL_KEYED (R250 to R255). -/
def execLtcallKeyed (i : Issue) (ka : KReg) (gs g : GReg) (s : State) : Host.Outcome State Fault Refusal :=
  .next <| runCall i (.key .ltKeyed 0 ka g gs) g s fun s x off blk ins =>
    lteCall s i.core x gs true ((s.core i.core).ctx.rk ka) off blk ins

/-- LTCALL_PUBLIC (R250 to R254). -/
def execLtcallPublic (i : Issue) (gs g : GReg) (s : State) : Host.Outcome State Fault Refusal :=
  .next <| runCall i (.key .ltPublic 0 0 g gs) g s fun s x off blk ins => lteCall s i.core x gs false none off blk ins

end Sys2Proof.Machine
end

