-- ==== Sys2Proof/Machine/KeyBlock.lean ====
section
/-! DEFINITION. Key wrapping formats (R233, R234, R427 to R431): X9.143 headers (Tables 9.10 and 9.11), AES-KW and AES-KWP, and
the derivation functions of Table 5.3. The ciphers themselves are uninterpreted (log 15). -/

namespace Sys2Proof.Machine

/-! ### Payloads -/

/-- Bytes of a key's payload: its material without public-key digests (R430). -/
def payloadLen (alg size : Nat) : Nat := if 0x20 ≤ alg then secretLen alg size else materialLen alg size

/-- Material of a key that enters by its payload: a lattice key's digest is computed again (Table 8.3). -/
def materialOf (alg : Nat) (payload : List Byte) : List Byte :=
  if 0x20 ≤ alg then materialFrom alg payload else payload

/-- Payload of a key. -/
def payloadOf (k : KeyRec) : List Byte := k.material.take (payloadLen k.attrs.alg k.attrs.size)

/-- Next multiple of `n`. -/
def roundTo (n v : Nat) : Nat := ceilDiv v n * n

/-- Output length of formats 1 and 2. -/
def kwLen (payload : Nat) : Nat := roundTo 8 payload + 8

/-- Result of unwrapping formats 1 and 2 (R431): `AUTH_FAIL` on any failure. -/
def kwUnwrapped (fmt : Nat) (ka : KeyRec) (a : Attrs) (input : List Byte) : Nat × List Byte :=
  let n := payloadLen a.alg a.size
  let fits := if fmt = 1 then input.length == n + 8 else input.length == kwLen n
  if fits && Config.cryptoOk .kwUnwrap (keyIn ka ++ [leBytes 1 fmt, leBytes 2 n, input]) then
    (0, cryptoBytes .kwUnwrap (keyIn ka ++ [leBytes 1 fmt, input]) n)
  else (St.authFail, [])

/-! ### X9.143 headers -/

/-- Value of ASCII digits in base 10 or 16; none where a byte is no digit. -/
def asciiNum (base : Nat) (l : List Byte) : Option Nat :=
  l.foldl (fun acc b => match acc with
    | none => none
    | some n =>
      let v := b.toNat
      if 0x30 ≤ v ∧ v ≤ 0x39 then some (n * base + (v - 0x30))
      else if base = 16 ∧ 0x41 ≤ v ∧ v ≤ 0x46 then some (n * base + (v - 0x37)) else none) (some 0)

/-- ASCII digits of a number. -/
def asciiDigits (n v : Nat) : List Byte := (List.range n).map fun i => BitVec.ofNat 8 (0x30 + v / 10 ^ (n - 1 - i) % 10)

/-- What a row of Table 9.11 grants: usage bits and engines. `u` is the two usage characters, `a` the algorithm and `m` the
mode of use. -/
def grantOf (u a m : Nat) : Option (Nat × Nat) :=
  let at_ := a == 0x41 || a == 0x54
  let pick (ok : Bool) (l : List (Nat × Nat)) (e : Nat) : Option (Nat × Nat) :=
    if ok = false then none
    else if m = 0x4E then some (l.foldl (fun n p => n ||| p.2) 0, e)
    else (alGet l m).map (·, e)
  let mac := [(0x43, 384), (0x47, 128), (0x56, 256)]
  match u with
  | 0x4230 | 0x4231 | 0x4530 => pick at_ [(0x58, 64)] 16
  | 0x4B30 | 0x4B31 => pick at_ [(0x42, 12), (0x45, 4), (0x44, 8)] 1
  | 0x4430 => pick at_ [(0x42, 3), (0x45, 1), (0x44, 2)] 1
  | 0x5030 => pick at_ [(0x42, 515), (0x45, 513), (0x44, 514)] 1
  | 0x4D31 | 0x4D33 => pick (a == 0x54) mac 1
  | 0x4D36 => pick at_ mac 1
  | 0x4D37 => pick (a == 0x48) mac 2
  | 0x5330 => pick (a == 0x45 || a == 0x52) [(0x53, 16), (0x56, 32)] 4
  | 0x4431 => pick (a == 0x52) [(0x44, 8), (0x45, 4)] 4
  | _ => none

/-- Algorithm character of an algorithm code. -/
def algChar (alg : Nat) : Option Nat :=
  if isAes alg then some 0x41 else if isTdes alg then some 0x54 else if alg = 6 then some 0x48
  else if 0x10 ≤ alg ∧ alg ≤ 0x14 then some 0x45 else if 0x18 ≤ alg ∧ alg ≤ 0x1A then some 0x52 else none

/-- A parsed header (Table 9.10). -/
structure X9Header where
  ver : Nat
  len : Nat
  alg : Nat
  usages : Nat
  engines : Nat
  component : Bool
  exportable : Bool
  ctx1 : Bool
  blocks : List (Nat × List Byte)
deriving DecidableEq, Repr

/-- Optional blocks: two characters, a two-digit length that counts the whole block, data (log 41). -/
def x9Blocks : Nat → List Byte → Option (List (Nat × List Byte))
  | 0, _ => some []
  | n + 1, b =>
    match asciiNum 16 (slice b 2 2) with
    | some l =>
      if l < 4 ∨ b.length < l then none
      else (x9Blocks n (b.drop l)).map ((beNat (slice b 0 2), (b.take l).drop 4) :: ·)
    | none => none

/-- Accepted identifiers: KC, KP, IK, TS, and PB as the last (R429). -/
def x9IdsOk (pb : Bool) : List (Nat × List Byte) → Bool
  | [] => true
  | [(i, _)] => [0x4B43, 0x4B50, 0x494B, 0x5453].contains i || (pb && i == 0x5042)
  | (i, _) :: l => [0x4B43, 0x4B50, 0x494B, 0x5453].contains i && x9IdsOk pb l

/-- A header with at most `max` optional blocks; `written` says that version and length are the module's to write (R428).
None where the syntax fails (R427 item 1). -/
def parseX9 (b : List Byte) (max : Nat) (written : Bool) : Option X9Header :=
  let ver := (b.getD 0 0).toNat
  let len := if written then some 0 else asciiNum 10 (slice b 1 4)
  let exp := (b.getD 11 0).toNat
  let ctx := (b.getD 14 0).toNat
  let c := (b.getD 9 0).toNat == 0x63
  match len, grantOf (beNat (slice b 5 2)) (b.getD 7 0).toNat (b.getD 8 0).toNat, asciiNum 10 (slice b 12 2) with
  | some len, some (u, e), some n =>
    let verOk := written || ver == 0x44 || ver == 0x42
    let numOk := c || (asciiNum 10 (slice b 9 2)).isSome
    match x9Blocks n (b.drop 16) with
    | some l =>
      let whole := 16 + l.foldl (fun m p => m + 4 + p.2.length) 0
      if decide (16 ≤ b.length ∧ n ≤ max ∧ (written = true → whole = b.length)) && verOk && numOk && [0x45, 0x4E, 0x53].contains exp
          && [0x30, 0x31, 0x32].contains ctx && (b.getD 15 0).toNat == 0x30 && x9IdsOk (!written) l then
        some { ver := ver, len := len, alg := (b.getD 7 0).toNat, usages := u, engines := e, component := c,
               exportable := exp == 0x45, ctx1 := ctx == 0x31, blocks := l }
      else none
    | none => none
  | _, _, _ => none

/-- Version that a wrapping key gives: 'D' for AES, 'B' for TDES. -/
def x9Version (ka : KeyRec) : Nat := if isAes ka.attrs.alg then 0x44 else 0x42

/-- Block length of a version. -/
def x9Unit (ver : Nat) : Nat := if ver = 0x44 then 16 else 8

/-- A subset of bits. -/
def bitsIn (a b : Nat) : Bool := a &&& b == a

/-- ASCII hexadecimal of a byte string. -/
def asciiHex (b : List Byte) : List Byte :=
  let digit := fun v : Nat => BitVec.ofNat 8 (if v < 10 then 0x30 + v else 0x37 + v)
  b.flatMap fun x => [digit (x.toNat / 16), digit (x.toNat % 16)]

/-- Check value of `n` hexadecimal digits by the method of a KC or KP block: "01" the CMAC of a zero block, else a zero block
encrypted (R429; log 41). -/
def x9Kcv (k : KeyRec) (method n : Nat) : List Byte :=
  let z := zeros (blockSize k.attrs.alg)
  let v := cryptoBytes (if method = 0x3031 then .cmac else .ecbEnc) (keyIn k ++ [z]) (ceilDiv n 2)
  (asciiHex v).take n

/-- A KC or KP block of method "01" holds the check value of the wrapped key `k` or of the wrapping key `ka` (R429). -/
def x9ValuesOk (ka k : KeyRec) (l : List (Nat × List Byte)) : Bool :=
  l.all fun p =>
    if (p.1 = 0x4B43 ∨ p.1 = 0x4B50) ∧ beNat (p.2.take 2) = 0x3031 then
      p.2.drop 2 == x9Kcv (if p.1 = 0x4B43 then k else ka) 0x3031 (p.2.length - 2)
    else true

/-- A bare key of material under attributes. -/
def bareKey (a : Attrs) (material : List Byte) : KeyRec :=
  { name := { dom := 0, idx := 0, gen := 0 }, attrs := a, material := material }

/-- Items 1 to 4 of R427: the status, the header and the payload. -/
def x9Open (ka : KeyRec) (a : Attrs) (input : List Byte) : Nat × Option X9Header × List Byte :=
  match parseX9 input 7 false with
  | none => (St.paramInvalid, none, [])
  | some h =>
    let n := payloadLen a.alg a.size
    if h.len ≠ input.length then (St.paramInvalid, none, [])
    else if h.component = true ∨ h.ctx1 = true ∨ h.ver ≠ x9Version ka then (St.keyPolicy, none, [])
    else if Config.cryptoOk .x9143Unwrap (keyIn ka ++ [leBytes 2 n, input]) = false then (St.authFail, none, [])
    else
      let p := cryptoBytes .x9143Unwrap (keyIn ka ++ [input]) n
      if x9ValuesOk ka (bareKey a (materialOf a.alg p)) h.blocks = false then (St.keyPolicy, none, [])
      else (0, some h, p)

/-- Item 5 of R427: the descriptor against what the header grants (Table 9.11, R234). -/
def x9Grants (a : Attrs) (h : X9Header) : Bool :=
  some h.alg == algChar a.alg && bitsIn a.usage h.usages && bitsIn a.engines h.engines && (!a.exportable || h.exportable)

/-- Result of unwrapping format 3 (R427). -/
def x9Unwrapped (ka : KeyRec) (a : Attrs) (input : List Byte) : Nat × List Byte :=
  match x9Open ka a input with
  | (0, some h, p) => if x9Grants a h then (0, p) else (St.keyPolicy, [])
  | (st, _, _) => (st, [])

/-- Checks of a header input for `KWRAP` (R428): `PARAM_INVALID` or `KEY_POLICY`. -/
def x9HeaderCheck (k : KeyRec) (input : List Byte) : Nat :=
  match parseX9 input 6 true with
  | none => St.paramInvalid
  | some h =>
    if 512 < input.length ∨ h.ctx1 = true then St.paramInvalid
    else if h.component = true ∨ some h.alg ≠ algChar k.attrs.alg ∨ bitsIn h.usages k.attrs.usage = false
        ∨ (h.exportable = true ∧ k.attrs.exportable = false) then St.keyPolicy
    else 0

/-- Output length of format 3: header, optional blocks and PB filled to a multiple of the version's unit, then in
hexadecimal the length, the payload and its padding, and the MAC (log 41). -/
def x9Len (ver header payload : Nat) : Nat :=
  roundTo (x9Unit ver) (header + 4) + 2 * roundTo (x9Unit ver) (payload + 2) + 2 * x9Unit ver

/-- An optional block: identifier, length in hexadecimal, data. -/
def x9Block (id : Nat) (data : List Byte) : List Byte :=
  beBytes 2 id ++ asciiHex (leBytes 1 (4 + data.length)) ++ data

/-- The optional blocks of a header input with each KC and KP value computed (R429). -/
def x9Filled (ka k : KeyRec) (l : List (Nat × List Byte)) : List Byte :=
  l.flatMap fun p =>
    if p.1 = 0x4B43 ∨ p.1 = 0x4B50 then
      x9Block p.1 (p.2.take 2 ++ x9Kcv (if p.1 = 0x4B43 then k else ka) (beNat (p.2.take 2)) (p.2.length - 2))
    else x9Block p.1 p.2

/-- Output of format 3 (R428): the header with version, length and count written, the optional blocks, PB, the encrypted part
and the MAC in hexadecimal. -/
def x9Wrapped (ka k : KeyRec) (header rand : List Byte) : List Byte :=
  let ver := x9Version ka
  let pay := payloadOf k
  let n := x9Len ver header.length pay.length
  let cnt := ((asciiNum 10 (slice header 12 2)).getD 0)
  let blocks := (x9Blocks cnt (header.drop 16)).getD []
  let pad := roundTo (x9Unit ver) (header.length + 4) - header.length - 4
  let head := BitVec.ofNat 8 ver :: asciiDigits 4 n ++ slice header 5 7 ++ asciiDigits 2 (cnt + 1) ++ slice header 14 2
    ++ x9Filled ka k blocks ++ x9Block 0x5042 ((asciiHex rand).take pad)
  head ++ asciiHex (cryptoBytes .x9143Wrap (keyIn ka ++ [head, pay, rand]) (roundTo (x9Unit ver) (pay.length + 2)))
    ++ asciiHex (cryptoBytes .x9143Mac (keyIn ka ++ [head, pay, rand]) (x9Unit ver))

/-! ### Derivation (Table 5.3) -/

/-- Result algorithm of an X9.24-3 derived key type (log 42). -/
def dukptAlg (t : Nat) : Option Nat :=
  match t with
  | 0 => some 4 | 1 => some 5 | 2 => some 1 | 3 => some 2 | 4 => some 3 | _ => none

/-- Usage of an X9.24-3 key usage indicator (log 42). -/
def dukptUsage (i : Nat) : Option Nat :=
  match i with
  | 0x1000 => some 515
  | 0x2000 => some 128 | 0x2001 => some 256 | 0x2002 => some 384
  | 0x3000 => some 1 | 0x3001 => some 2 | 0x3002 => some 3
  | _ => none

/-- The base key suits the function (Table 5.2 row 4; log 42). -/
def deriveSuits (fn alg : Nat) : Bool :=
  match fn with
  | 1 => isAes alg
  | 2 => isAes alg || alg == 6
  | _ => isAes alg || isTdes alg

/-- Attributes of the result, from the block and the base key's algorithm; none where the block's own fields are outside
their values (Table 5.4b row 3). -/
def deriveAttrs (blk : List Byte) (baseAlg : Nat) : Option Attrs :=
  let fn := fieldAt blk 0 1
  let d := slice blk 16 32
  let len := (refAt blk 8).len
  let engines := fieldAt d 6 1
  let flags := fieldAt d 7 1
  let own : Attrs :=
    { engines := engines, exportable := bitOf flags 0, dual := bitOf flags 1, persist := bitOf flags 2 }
  let ownOk := decide (engines < 64 ∧ flags < 8) && rsvdOk d 24 8
  let rsv := rsvdOk blk 6 2 && rsvdOk blk 48 16 && (refAt blk 8).valid
  if rsv = false then none
  else match fn with
    | 1 => match dukptUsage (fieldAt blk 2 2), dukptAlg (fieldAt blk 4 2) with
      | some u, some a =>
        if ownOk && decide (fieldAt blk 1 1 ≤ 1 ∧ len = 12) && !own.persist then
          some { own with alg := a, usage := u, notAfter := 2 ^ 64 - 1 }
        else none
      | _, _ => none
    | 2 | 3 => (parseAttrs d).bind fun a =>
        if decide (1 ≤ len ∧ len ≤ 1024 ∧ ¬ (0x18 ≤ a.alg ∧ a.alg ≤ 0x1A)) then some a else none
    | 4 =>
      let u := fieldAt d 4 2
      if ownOk && decide (len = 2) && !own.persist && bitsIn u 387 then
        some { own with alg := baseAlg, usage := u, notBefore := fieldAt d 8 8, notAfter := fieldAt d 16 8 }
      else none
    | _ => none

/-- Material of the derived key (log 15): block bytes 1 to 5 are function 1's alone (Table 5.3). -/
def deriveMaterial (blk : List Byte) (base : KeyRec) (a : Attrs) (context : List Byte) : List Byte :=
  let fn := fieldAt blk 0 1
  let p : Prim := match fn with | 1 => .dukpt | 2 => .kmacKdf | 3 => .cmacKdf | _ => .emvKey
  let n := secretLen a.alg a.size
  materialFrom a.alg (cryptoBytes p (keyIn base ++ [if fn = 1 then slice blk 1 5 else [], context, leBytes 2 n]) n)

end Sys2Proof.Machine
end

