-- ==== Sys2Proof/Machine/SvcKeys.lean ====
section
/-! DEFINITION. The key instructions (R226 to R235, R815, R819) and the commands that complete them. -/

namespace Sys2Proof.Machine

/-! ### Pending key instructions -/

/-- Issue a key instruction: kd is emptied (R227) and the outcome waits its turn (R212). -/
def pushK (s : State) (c : CoreId) (p : PendK) : State :=
  let k := supersede (s.core c) p.gs
  let ctx := match p.op, p.kd with
    | .kdrop, _ | _, none => k.ctx
    | _, some r => k.ctx.wk r none
  s.setCore c { k with ctx := ctx, pendK := k.pendK ++ [{ p with asked := now s, late := k.item.any txClosing }] }

/-- A key instruction that fails at issue. -/
def failK (s : State) (c : CoreId) (op : KOp) (kd : Option KReg) (gs : GReg) (st : Nat) (tag : Nat := 0) : State :=
  pushK s c { op := op, kd := kd, gs := gs, status := st, tag := tag }

/-- Tag of the instruction that issues now: its stroke. -/
def tagOf (x : Item) : Nat := x.strokes + 1

/-- A key breaks C8 by its kind or size. -/
def bigFor8 (a : Attrs) : Bool := !symmetricAlg a.alg || decide (64 < materialLen a.alg a.size)

/-- Count an instruction for C8 (Table 6.3): the keys that it names, and the attributes of one that it makes. -/
def countLoad (s : State) (c : CoreId) (named : List (Option KeyRec)) (made : Option Attrs) : State :=
  let big := (named.filterMap id).any (fun k => bigFor8 k.attrs || !resident s k.name) || made.any bigFor8
  modC0 s c fun y => { y with keyLoads := y.keyLoads + 1, bigKey := y.bigKey || big }

/-! ### Records -/

/-- Bytes of a transaction. -/
def Tx.size (t : Tx) : Nat := t.recs.foldl (fun n r => n + r.size) 0

/-- A record of so many bytes fits (R269). -/
def Tx.fits (t : Tx) (size : Nat) : Bool := decide (t.recs.length < 16 ∧ t.size + size ≤ 4096)

/-- Rows 7 and 8 of Table 5.4b. -/
def txCheck (x : Item) (size : Nat) : Nat :=
  match x.tx with
  | none => St.journalState
  | some t => if t.fits size then 0 else St.journalLimit

/-- Add a record to the open transaction (R819). -/
def addRec (s : State) (c : CoreId) (tag size : Nat) (r : Rec) : State :=
  modItem s c fun x => { x with tx := x.tx.map fun t => { t with recs := t.recs ++ [{ tag := tag, recd := r, size := size }] } }

/-- Take out the record that an instruction added (R819). -/
def dropRec (s : State) (c : CoreId) (tag : Nat) : State :=
  modItem s c fun x => { x with tx := x.tx.map fun t => { t with recs := t.recs.filter fun r => r.tag != tag || tag == 0 } }

/-- Replace the record that an instruction added. -/
def setRec (s : State) (c : CoreId) (tag : Nat) (r : Rec) : State :=
  modItem s c fun x => { x with tx := x.tx.map fun t => { t with recs := t.recs.map fun y =>
    if y.tag = tag then { y with recd := r } else y } }

/-- Keys that open transactions create. -/
def openCreates (s : State) : List KeyRec :=
  (liveChains s).flatMap fun x => match x.tx with
    | some t => t.recs.filterMap fun r => match r.recd with | .keyCreate k => some k | _ => none
    | none => []

/-- Records that keys occupy (R368). -/
def recordsIn (l : List KeyRec) : Nat := l.foldl (fun n k => n + recordsOf k.attrs.alg k.attrs.size) 0

/-- Records in use, those held by open transactions included (R366). -/
def recordsUsed (s : State) : Nat := recordsIn ((cfgAt s (lastCsn s)).keys ++ openCreates s)

/-- Last generation handed out for an index (R363, R365). -/
def lastGen (s : State) (d i : Nat) : Nat :=
  (s.ksc.issued.filter fun x => x.1 == d && x.2.1 == i).foldl (fun n x => max n x.2.2)
    ((alGet (cfgAt s (lastCsn s)).gens (d, i)).getD 0)

/-- The lowest free index of a domain and its next generation (R362, R363); none where there is none. -/
def nextName (s : State) (d : Nat) : Option KeyName :=
  let taken := ((cfgAt s (lastCsn s)).keys ++ openCreates s).filter (fun k => k.name.dom == d) |>.map (·.name.idx)
  let retired := (s.ksc.issued.filter fun x => x.1 == d && x.2.2 == 0xFFFFFF).length
    + ((cfgAt s (lastCsn s)).gens.filter fun x => x.1.1 == d && x.2 == 0xFFFFFF).length
  ((List.range (taken.length + retired + 1)).map (· + 1)).findSome? fun i =>
    let g := lastGen s d i
    if i < 2 ^ 27 ∧ taken.contains i = false ∧ g < 0xFFFFFF then some { dom := d, idx := i, gen := g + 1 } else none

/-- Rows 6 to 9 of Table 5.4b for a key to be created. -/
def createCheck (s : State) (x : Item) (a : Attrs) : Nat :=
  let n := recordsOf a.alg a.size
  if a.dual then St.quorumRequired
  else if a.persist = false then 0
  else
    let st := txCheck x (256 * n)
    if st ≠ 0 then st
    else if s.variant.keyRecords < recordsUsed s + n ∨ (nextName s x.imageDom).isNone = true then St.storeFull
    else 0

/-- Name a new key and, where it is persisted, add its record (R362, R364, R819). -/
def nameKey (s : State) (c : CoreId) (x : Item) (a : Attrs) : KeyRec × State :=
  let d := x.imageDom
  let blank (n : KeyName) : KeyRec := { name := n, attrs := a }
  match (if a.persist then nextName s d else none) with
  | some n =>
    let s := { s with ksc := { s.ksc with issued := s.ksc.issued ++ [(n.dom, n.idx, n.gen)] } }
    (blank n, addRec s c (tagOf x) (256 * recordsOf a.alg a.size) (.keyCreate (blank n)))
  | none =>
    let (u, s) := newUid s
    (blank { dom := d, idx := 0, gen := 0, uid := u }, s)

/-! ### Engine jobs (R446) -/

/-- Send a key instruction's engine job under its base or wrapping key (R449), or complete it `ENGINE_ABORTED`. -/
def keyJob (s : State) (c : CoreId) (x : Item) (kind : SymKind) (blocks : Nat) (key : KeyRec) (wrapped : Option KeyRec)
    (reads writes : List BufRef) (p : PendK) : Effect :=
  match chooseEngine s kind (crewOf c) with
  | .stall => .stall
  | .offline => .next { s := pushK s c { p with status := St.engineAborted, handle := none, ldm := [], out := [] } }
  | .engine e =>
    let (n, s) := newTicket s (if kind = .hash then 2 else 1)
    let j := newJob c x n (.keyInstr blocks wrapped reads writes) (some key)
    .next { s := pushK (countBlocks (pushJob s kind e j) c kind j) c { p with wait := .job n } }

/-! ### `KLOAD` (R226) -/

/-- The time checks of R82, R101 and R102: an absent bound is not checked. -/
def windowOk (s : State) (a : Attrs) : Bool :=
  let early := a.notBefore == 0
  let late := a.notAfter == 2 ^ 64 - 1
  let u := uTicks s
  (early && late) || (s.mer.state != .adrift && s.mer.state != .acquiring
    && (early || decide (a.notBefore + u ≤ s.mer.t)) && (late || decide (s.mer.t + u ≤ a.notAfter)))

/-- The usage policy of R412. -/
def policyOkFor (s : State) (c : Cfg) (x : Item) (k : KeyRec) : Bool :=
  k.policy == 0 || (match alGet c.usages (k.name.dom, k.policy) with
    | some u => bitOf u.classes x.cls && (u.inst == 0xFFFF || u.inst == x.inst) && (!u.fixOnly || s.mer.state == .fix)
    | none => false)

/-- KLOAD (R226, R383). -/
def execKload (i : Issue) (kd : KReg) (gs g : GReg) (s : State) : Host.Outcome State Fault Refusal :=
  .next <| runOp i (.key .kload kd 0 g gs) s fun s x _ =>
    let c := i.core
    let cfg := cfgAt s x.snap
    let n := nameOfId (rd s c g).toNat
    let found := if n.dom = x.imageDom ∧ n.idx ≠ 0 then cfg.keys.find? (fun k => k.name == n) else none
    let s := countLoad s c [found] none
    let fail st := Effect.next { s := failK s c .kload (some kd) gs st }
    if kscOn s = false then .stall
    else if locked s then fail St.tamperLock
    else match found with
      | none => fail St.keyNotFound
      | some k =>
        if windowOk s k.attrs = false then fail St.keyOutsideWindow
        else if policyOkFor s cfg x k = false then fail St.keyPolicy
        else
          match takeRoom (modCtx s c fun y => y.wk kd none) x.inst k with
          | none => .next { s := failK (setBit s 0x00040008 5) c .kload (some kd) gs St.keyCacheFull }
          | some t =>
            let w := if resident s k.name then Wait.ready else .fill
            .next { s := pushK t c { op := .kload, kd := some kd, gs := gs, handle := some k, wait := w } }

/-- The load that waits for its record ends with `MEM_INTEGRITY`: the key is absent for that read (R370). -/
def failFill (s : State) (c : CoreId) (p : PendK) : State :=
  let k := s.core c
  let s := s.setCore c { k with pendK := k.pendK.map fun q =>
    if q = p then { q with wait := .ready, status := St.memIntegrity, handle := none } else q }
  match p.handle with
  | some h => uncache s h.name
  | none => s

/-- Its key is in the cache now. -/
def endFill (s : State) (c : CoreId) (p : PendK) : State :=
  let k := s.core c
  s.setCore c { k with pendK := k.pendK.map fun q => if q = p then { q with wait := .ready } else q }

/-- The record is written again from the journal and the other NAND copy (R370). -/
def rebuildRecord (s : State) (n : KeyName) : State :=
  let old := (alGet s.ksc.recWseq n).getD []
  let new := (List.range old.length).map fun i => s.ksc.wseq + 1 + i
  let s := scheduleErase s n (old.map Config.copyBlock)
  { s with ksc := { s.ksc with recWseq := if old = [] then s.ksc.recWseq else alSet s.ksc.recWseq n new
                               wseq := s.ksc.wseq + old.length } }

/-- KEY_CACHE_MISS_FILL (R290, R370, R380, R383): the oldest load of a core that waits for its record. `r` is what the read of
the record meets. Without mask bits the fill waits (R382). -/
def execKeyCacheMissFill (c : CoreId) (r : RecordRead) (s : State) : Host.Outcome State Fault Refusal :=
  .next <|
    match takeFirst (fun p : PendK => p.wait == .fill) (s.core c).pendK with
    | none => s
    | some (p, _) =>
      if kscOn s = false ∨ kscYields s c (fun q => q.wait == .fill) = true then s
      else match p.handle with
        | none => endFill s c p
        | some k =>
          if resident s k.name then endFill s c p
          else if MemEvent.readable r.mem = false then if memWaits s r.mem then s else memMeets (failFill s c p) r.mem
          else if (r.tagOk && s.ksc.kRecord.isSome) = false then
            keyPathFault (memMeets (rebuildRecord (logOpen (failFill s c p) 4 7 [keyIdOf k.name]) k.name) r.mem)
          else match fillEntries s k with
            | some s => memMeets (endFill s c p) r.mem
            | none => s

/-! ### `KGEN`, `KDERIVE`, `KWRAP`, `KUNWRAP` -/

/-- `KGEN` waits for Lock and Lock-new (Table 18.4). -/
def genLocked (s : State) : Bool := s.bin.lock || s.bin.lockNew

/-- KGEN (R229 to R231, R815). -/
def execKgen (i : Issue) (kd : KReg) (gs g : GReg) (s : State) : Host.Outcome State Fault Refusal :=
  .next <| runOp i (.key .kgen kd 0 g gs) s fun s x _ =>
    let c := i.core
    withBlock s c x g 48 (fun _ => []) fun off blk =>
      let a := (parseAttrs (blk.take 32)).filter fun a =>
        rsvdOk blk 40 8 && !decide (0x18 ≤ a.alg ∧ a.alg ≤ 0x1A)
      let s := notEligible s c
      let s := countLoad s c [] a
      let fail st := Effect.next { s := failK s c .kgen (some kd) gs st }
      if kscOn s = false ∨ txClosing x = true then .stall
      else if genLocked s then fail St.tamperLock
      else match a with
        | none => fail St.paramInvalid
        | some a =>
          let st := createCheck s x a
          if st ≠ 0 then fail st
          else
            let (k, s) := nameKey s c x { a with generated := true }
            let p : PendK :=
              { op := .kgen, kd := some kd, gs := gs, handle := some k, tag := tagOf x, wait := .drbg
                ldm := [(off + 32, leBytes 8 (keyIdOf k.name))] }
            .next { s := pushK s c p }

/-- KDERIVE (R232, R815). -/
def execKderive (i : Issue) (kd ka : KReg) (gs g : GReg) (s : State) : Host.Outcome State Fault Refusal :=
  .next <| runOp i (.key .kderive kd ka g gs) s fun s x _ =>
    let c := i.core
    withBlock s c x g 64 (fun b => [(refAt b 8, false)]) fun _ blk =>
      let base := (s.core c).ctx.rk ka
      let fn := fieldAt blk 0 1
      let ctxRef := refAt blk 8
      let a := deriveAttrs blk ((base.map (·.attrs.alg)).getD 1)
      let s := countLoad s c [base] a
      let fail st := Effect.next { s := failK s c .kderive (some kd) gs st }
      if kscOn s = false ∨ txClosing x = true ∨ bytesBusy s c ctxRef = true then .stall
      else if locked s then fail St.tamperLock
      else match a with
        | none => fail St.paramInvalid
        | some a =>
          let st := useCheck base eKdf [uDerive] (deriveSuits fn)
          if st ≠ 0 then fail st
          else match base with
            | none => fail St.noHandle
            | some y =>
              if (fn = 2 ∨ fn = 3) ∧ bitsIn a.usage y.attrs.usage = false then fail St.paramInvalid
              else
                let st := createCheck s x a
                if st ≠ 0 then fail st
                else
                  let (k, s) := nameKey s c x a
                  let k := { k with material := deriveMaterial blk y a (readRef s c x ctxRef) }
                  keyJob s c x (if fn = 2 then .hash else .cipher) (Config.keyJobBlocks fn ctxRef.len) y none [ctxRef] []
                    { op := .kderive, kd := some kd, gs := gs, handle := some k, tag := tagOf x }

/-- A wrapping key suits a format: AES for formats 1 and 2, AES or TDES for format 3. -/
def wrapSuits (fmt alg : Nat) : Bool := isAes alg || (fmt == 3 && isTdes alg)

/-- Row 5 of Table 5.4b for a key `k` to be wrapped under `w`, `n` being the output's length. -/
def wrapCheck (fmt : Nat) (k : Option KeyRec) (header : List Byte) (destLen n : Nat) : Nat :=
  match k with
  | none => St.noHandle
  | some k =>
    let h := if fmt = 3 then x9HeaderCheck k header else 0
    if k.attrs.exportable = false then St.keyPolicy
    else if h ≠ 0 then h
    else if destLen < n then St.paramInvalid else 0

/-- KWRAP (R233, R428, R430, R815). -/
def execKwrap (i : Issue) (kd ka : KReg) (gs g : GReg) (s : State) : Host.Outcome State Fault Refusal :=
  .next <| runOp i (.key .kwrap kd ka g gs) s fun s x _ =>
    let c := i.core
    let used := fun b => (refAt b 8, true) :: if fieldAt b 0 1 = 3 then [(refAt b 24, false)] else []
    withBlock s c x g 32 used fun off blk =>
      let fmt := fieldAt blk 0 1
      let dst := refAt blk 8
      let hdr := refAt blk 24
      let w := (s.core c).ctx.rk ka
      let k := (s.core c).ctx.rk kd
      let s := countLoad s c [w, k] none
      let fail st := Effect.next { s := failK s c .kwrap none gs st }
      if kscOn s = false ∨ (used blk).any (fun r => bytesBusy s c r.1) = true then .stall
      else if locked s then fail St.tamperLock
      else if (decide (1 ≤ fmt ∧ fmt ≤ 3) && rsvdOk blk 1 7 && (used blk).all (fun r => r.1.valid)) = false then
        fail St.paramInvalid
      else
        let st := useCheck w eCph [uWrap] (wrapSuits fmt)
        if st ≠ 0 then fail st
        else
          let header := if fmt = 3 then readRef s c x hdr else []
          let pay := match k with | some k => payloadOf k | none => []
          let ver := match w with | some w => x9Version w | none => 0x44
          let n := if fmt = 3 then x9Len ver header.length pay.length else kwLen pay.length
          let st := wrapCheck fmt k header dst.len n
          if st ≠ 0 then fail st
          else if fmt = 1 ∧ (pay.length < 16 ∨ pay.length % 8 ≠ 0) then fail St.paramInvalid
          else match w, k with
            | some w, some k =>
              let out := if fmt = 3 then x9Wrapped w k header (freeBytes s.free 32)
                else cryptoBytes .kwWrap (keyIn w ++ [leBytes 1 fmt, pay]) n
              let s := if fmt = 3 then notEligible { s with free := s.free + 1 } c else s
              let blocks := if fmt = 3 then Config.keyJobBlocks 0 n else kwBlocks (n - 8)
              keyJob s c x .cipher blocks w (some k) (if fmt = 3 then [hdr] else []) [dst]
                { op := .kwrap, gs := gs, dst := dst, out := out, ldm := [(off + 16, leBytes 4 n)] }
            | _, _ => fail St.noHandle

/-- KUNWRAP (R234, R427, R431, R815). -/
def execKunwrap (i : Issue) (kd ka : KReg) (gs g : GReg) (s : State) : Host.Outcome State Fault Refusal :=
  .next <| runOp i (.key .kunwrap kd ka g gs) s fun s x _ =>
    let c := i.core
    withBlock s c x g 56 (fun b => [(refAt b 8, false)]) fun _ blk =>
      let fmt := fieldAt blk 0 1
      let src := refAt blk 8
      let w := (s.core c).ctx.rk ka
      let s := countLoad s c [w] (parseAttrs (slice blk 24 32))
      let fail st := Effect.next { s := failK s c .kunwrap (some kd) gs st }
      if kscOn s = false ∨ txClosing x = true ∨ bytesBusy s c src = true then .stall
      else if locked s then fail St.tamperLock
      else
        let shape := decide (1 ≤ fmt ∧ fmt ≤ 3) && rsvdOk blk 1 7 && rsvdOk blk 16 8 && src.valid
          && (fmt == 3 || decide (16 ≤ src.len ∧ src.len % 8 = 0))
        match (if shape then parseAttrs (slice blk 24 32) else none) with
        | none => fail St.paramInvalid
        | some a =>
          let st := useCheck w eCph [uUnwrap] (wrapSuits fmt)
          if st ≠ 0 then fail st
          else
            let st := createCheck s x a
            if st ≠ 0 then fail st
            else match w with
              | none => fail St.noHandle
              | some w =>
                let input := readRef s c x src
                let r := if fmt = 3 then x9Unwrapped w a input else kwUnwrapped fmt w a input
                let (k, s) := nameKey s c x a
                let k := { k with material := materialOf a.alg r.2 }
                let blocks := if fmt = 3 then Config.keyJobBlocks 0 src.len else kwBlocks (src.len - 8)
                keyJob s c x .cipher blocks w none [src] []
                  { op := .kunwrap, kd := some kd, gs := gs, status := r.1, handle := if r.1 = 0 then some k else none
                    tag := tagOf x }

/-! ### `KATTR` and `KDROP` -/

/-- The report of Table 5.4 row 0: the counter is the next value that an encryption would draw (log 107). -/
def attrReport (s : State) (k : KeyRec) : List Byte :=
  leBytes 8 (keyIdOf k.name) ++ attrBytes k.attrs ++ leBytes 8 (nextCtr s k) ++ k.kcv.take 3 ++ zeros 5
    ++ leBytes 8 k.csnChanged

/-- The descriptor narrows the attributes (Table 5.4 row 1): the window only shrinks. -/
def narrows (old new : Attrs) : Bool :=
  new.alg == old.alg && new.size == old.size && new.dual == old.dual && new.persist == old.persist
    && bitsIn new.usage old.usage && bitsIn new.engines old.engines && (!new.exportable || old.exportable)
    && decide (old.notBefore ≤ new.notBefore ∧ new.notAfter ≤ old.notAfter)

/-- Attributes of a key in every handle register that names it change. -/
def narrowHandles (s : State) (c : CoreId) (n : KeyName) (a : Attrs) : State :=
  modCtx s c fun x => { x with k := x.k.map fun h => h.map fun y => if y.name = n then { y with attrs := a } else y }

/-- A key that is not persisted is erased from the cache once no issued job reads it (Table 5.4 row 2, R378). -/
def eraseKey (s : State) (n : KeyName) : State :=
  if (jobNames s).contains n then { s with ksc := { s.ksc with deleted := s.ksc.deleted ++ [n] } } else uncache s n

/-- The shape of a `KATTR` block (R235, row 3 of Table 5.4b). -/
def kattrShape (blk : List Byte) : Bool :=
  let op := fieldAt blk 0 1
  let dst := refAt blk 8
  rsvdOk blk 1 7 && (if op = 0 then dst.valid && decide (64 ≤ dst.len) else if op = 1 then (parseAttrs (slice blk 16 32)).isSome
    else op == 2)

/-- `KATTR` restrict after rows 1 to 4. -/
def restrictKey (s : State) (c : CoreId) (x : Item) (gs : GReg) (k : KeyRec) (new : Attrs) : State :=
  let done st tag := failK s c .kattr none gs st tag
  let new := { new with generated := k.attrs.generated }
  if new.dual = true ∨ narrows k.attrs new = false then done St.quorumRequired 0
  else if k.name.idx = 0 then failK (narrowHandles s c k.name new) c .kattr none gs 0
  else
    let st := txCheck x 64
    if st ≠ 0 then done st 0 else failK (addRec s c (tagOf x) 64 (.keyAttrs k.name new)) c .kattr none gs 0

/-- `KATTR` delete after rows 1 to 4. -/
def deleteKey (s : State) (c : CoreId) (x : Item) (ka : KReg) (gs : GReg) (k : KeyRec) : State :=
  if k.name.idx = 0 then failK (eraseKey (modCtx s c fun y => y.wk ka none) k.name) c .kattr (some ka) gs 0
  else if k.attrs.dual then failK s c .kattr none gs St.quorumRequired
  else
    let st := txCheck x 32
    if st ≠ 0 then failK s c .kattr none gs st
    else failK (addRec s c (tagOf x) 32 (.keyDelete k.name)) c .kattr none gs 0

/-- `KATTR` whose block selects operation `want`; a block that selects another is another command's (log 1). Values that
select none are taken with the read. -/
def runKattr (i : Issue) (want : Nat) (ka : KReg) (gs g : GReg) (s : State) : State :=
  let used := fun b => if fieldAt b 0 1 = 0 then [(refAt b 8, true)] else []
  runOp i (.key .kattr 0 ka g gs) s fun s x _ =>
    let c := i.core
    withBlock s c x g 48 used fun _ blk =>
      let op := fieldAt blk 0 1
      let dst := refAt blk 8
      let k := (s.core c).ctx.rk ka
      let fail st := Effect.next { s := failK s c .kattr none gs st }
      if op ≠ want ∧ ¬ (want = 0 ∧ 2 < op) then .stall
      else if kscOn s = false ∨ txClosing x = true ∨ (used blk).any (fun r => bytesBusy s c r.1) = true then .stall
      else if locked s then fail St.tamperLock
      else if kattrShape blk = false then fail St.paramInvalid
      else match k with
        | none => fail St.noHandle
        | some y =>
          if op = 0 then .next { s := pushK s c { op := .kattr, gs := gs, dst := dst, out := attrReport s y } }
          else if op = 1 then .next { s := restrictKey s c x gs y ((parseAttrs (slice blk 16 32)).getD {}) }
          else .next { s := deleteKey s c x ka gs y }

/-- KATTR_READ (Table 5.4 row 0). -/
def execKattrRead (i : Issue) (ka : KReg) (gs g : GReg) (s : State) : Host.Outcome State Fault Refusal :=
  .next (runKattr i 0 ka gs g s)

/-- KATTR_RESTRICT (Table 5.4 row 1). -/
def execKattrRestrict (i : Issue) (ka : KReg) (gs g : GReg) (s : State) : Host.Outcome State Fault Refusal :=
  .next (runKattr i 1 ka gs g s)

/-- KATTR_DELETE (Table 5.4 row 2). -/
def execKattrDelete (i : Issue) (ka : KReg) (gs g : GReg) (s : State) : Host.Outcome State Fault Refusal :=
  .next (runKattr i 2 ka gs g s)

/-- KDROP (R228, R702). -/
def execKdrop (i : Issue) (ka : KReg) (s : State) : Host.Outcome State Fault Refusal :=
  .next <| runOp i (.key .kdrop 0 ka 0 0) s fun s _ _ =>
    .next { s := pushK s i.core { op := .kdrop, kd := some ka } }

/-! ### Completion -/

/-- The draws of a new key, made as its instruction completes (Table 13.3): `KGEN` draws its secret from the crew DRBG,
every new key its `iv_fixed` from the system DRBG (R372). None while a DRBG cannot serve. -/
def newKeyDraws (s : State) (c : CoreId) (p : PendK) (k : KeyRec) : Option (KeyRec × State) :=
  let filled : Option (KeyRec × State) :=
    if p.op = .kgen then
      (drbgDraw s (crewOf c) (secretLen k.attrs.alg k.attrs.size)).map fun r =>
        ({ k with material := materialFrom k.attrs.alg r.1 }, r.2)
    else some (k, s)
  match filled with
  | none => none
  | some (k, s) => (sysDraw s .ksc 5).map fun r =>
      let k := { k with ivFixed := leNat r.1 }
      ({ k with kcv := kcvOf k }, r.2)

/-- A key instruction ends with a status: its outputs are written, its kd and gs receive the handle and the status (R211,
R214, R227); a failed one takes its record out of the transaction (R819). -/
def writeK (s : State) (c : CoreId) (p : PendK) : State :=
  let ok := p.status == 0
  let s := if ok then writeRef (ldmWrites s c p.ldm) c p.dst p.out else dropRec s c p.tag
  let s := modCtx s c fun x =>
    let x := match p.kd with
      | some r => x.wk r (if ok then p.handle else none)
      | none => x
    if p.op = .kdrop then x else x.wg p.gs (BitVec.ofNat 64 p.status)
  if p.op = .kdrop then s else setLast (countStatus s (instOn s c) p.status) c p.status

/-- A creating instruction makes its draws and takes a cache place (rows 10 and 11 of Table 5.4b); its chain's output is no
longer compared (R258). -/
def createK (s : State) (c : CoreId) (p : PendK) (k : KeyRec) : Option State :=
  match newKeyDraws s c p k with
  | none => none
  | some (k, s) =>
    match placeKey s ((instOn s c).getD 0) k with
    | .placed s => some (notEligible (writeK (setRec s c p.tag (.keyCreate k)) c { p with handle := some k }) c)
    | .full => some (writeK s c { p with status := St.keyCacheFull, handle := none })
    | .wait => none

/-- The instruction creates a key. -/
def PendK.creates (p : PendK) : Bool := p.op == .kgen || p.op == .kderive || p.op == .kunwrap

/-- KEY_INSTR_COMPLETE (R212, R290, R404): the oldest key instruction of a core. -/
def execKeyInstrComplete (c : CoreId) (s : State) : Host.Outcome State Fault Refusal :=
  .next <| match (s.core c).pendK with
  | [] => s
  | p :: rest =>
    let t := s.setCore c { s.core c with pendK := rest }
    if kscOn s = false ∨ kscYields s c (fun q => q.wait == .ready || q.wait == .drbg) = true then s
    else match p.wait, p.handle with
    | .ready, some k | .drbg, some k =>
      if p.creates && p.status == 0 then (createK t c p k).getD (sysWait s .ksc) else writeK t c p
    | .ready, none => writeK t c p
    | _, _ => s

end Sys2Proof.Machine
end

