-- ==== Sys2Proof/Machine/SvcEnd.lean ====
section
/-! DEFINITION. The endings `REPLY`, `DONE` and `CONT`, the queueing instructions `POST` and `DELAY`, and the journal
instructions (R259 to R273, R819). -/

namespace Sys2Proof.Machine

/-! ### Endings -/

/-- No symmetric job, key instruction or register result of the core is outstanding: an ending waits for them
(R128, R259). -/
def settled (s : State) (c : CoreId) : Bool :=
  !jobsOutstanding s c && (s.core c).pendK.isEmpty && (s.core c).pendG.isEmpty

/-- End a chain with program status `st` (R46, R126, R259): a host chain may become a sample. -/
def finishChain (c : CoreId) (st : Nat) (payload : List Byte) (s : State) : State := endRun s c st payload

/-- REPLY (R259, R260): the operand rules come before the bound. -/
def execReply (i : Issue) (a : GReg) (s : State) : Host.Outcome State Fault Refusal :=
  .next <| runOp i (.svc .reply 0 a 0) s fun s x _ =>
    let c := i.core
    let v := (rd s c a).toNat
    let n := v % 65536
    let st := v / 65536 % 65536
    if 2 ^ 32 ≤ v ∨ (st ≠ 0 ∧ (st < 0x0200 ∨ 0x03FF < st)) then .fault s St.illegalInstr
    else if x.replyCap < n then .fault s St.windowBounds
    else if settled s c = false then .stall
    else .ends s fun s =>
      let rpl := match (s.core c).item with
        | some x => x.rpl
        | none => []
      finishChain c st (Mem.read rpl 0 n) s

/-- DONE (R46, R126, R261). -/
def execDone (i : Issue) (s : State) : Host.Outcome State Fault Refusal :=
  .next <| runOp i (.svc .done 0 0 0) s fun s _ _ =>
    if settled s i.core = false then .stall else .ends s (finishChain i.core 0 [])

/-! ### `CONT` -/

/-- Entries of the continuation table (R301). -/
def contTable : Nat := 262144

/-- Entries in use: a chain holds one from its `CONT` until its continuation's dispatch. -/
def contUse (s : State) : Nat := s.dsp.parked.length + (s.dsp.work.filter fun w => w.carry.isSome).length

/-- The call block and output references of a ticket's job, in either pool. -/
def callOf (s : State) (num : Nat) : Option (Nat × List BufRef) :=
  let jobs := s.bne.queue ++ s.bne.engines.toList.flatMap PoolEngine.jobs ++ s.lte.queue
    ++ s.lte.engines.toList.flatMap PoolEngine.jobs
  match jobs.find? fun j => j.num == num with
  | some j => some (j.blk, j.outs)
  | none => ((s.bne.done ++ s.lte.done).find? fun d => d.num == num).map fun d => (d.blk, d.outs)

/-- A byte of the job's block or of an output in `ldm` lies at or beyond the carry length (R251). -/
def beyondCarry (s : State) (num carry : Nat) : Bool :=
  match callOf s num with
  | none => false
  | some (blk, outs) => decide (carry < blk + 64) ||
      outs.any fun r => r.valid && r.space == 0 && decide (0 < r.len ∧ carry < r.off + r.len)

/-- A parked chain's ticket completed: the continuation becomes READY ahead of its queue (R302). -/
def matchCont (s : State) (w : Work) : State :=
  let s := { s with dsp := { s.dsp with parked := s.dsp.parked.filter fun v => v.item.serial != w.item.serial } }
  traceItem (modWork s (w :: ·)) 2 w.item 0 0

/-- Park the chain on core `c` (Table 3.6, R301), or end it where the table is full (R263); a ticket already complete makes
the continuation ready at once (R262). A held chain that parks has broken C9 (R309), and its continuation is not reserved
(R284). -/
def parkChain (c : CoreId) (num carry len : Nat) (s : State) : State :=
  let k := s.core c
  match k.item with
  | none => s
  | some x =>
    if contTable ≤ contUse s then
      endChain (traceItem (countStatus s (some x.inst) St.contFull) 3 x 0 St.contFull) c St.contFull []
    else
      let (pc, l) := seqNext k.ctx len
      let x' := { x with
        tickets := x.tickets.map fun t => if t.num = num then { t with bound := true } else t
        held := false
        reserved := false
        c0 := { x.c0 with cycles := x.c0.cycles + k.cycles, calls := true } }
      let w : Work :=
          { item := x', carry := some { ctx := { k.ctx with pc := pc, loop := l }, ldm := Mem.keepBelow k.ldm carry, ticket := num } }
      let s := noteBreach s c { x with c0 := { x.c0 with calls := true } } k.cycles
      let s := charge (freeCore s c) x (itemCost s k)
      let s := { s with dsp := { s.dsp with parked := s.dsp.parked ++ [w] } }
      if x.tickets.any fun t => t.num == num && t.done.isSome then matchCont s w else s

/-- CONT (R128 to R130, R251, R262, R263). -/
def execCont (i : Issue) (a b : GReg) (s : State) : Host.Outcome State Fault Refusal :=
  .next <| runOp i (.svc .cont 0 a b) s fun s x len =>
    let c := i.core
    let num := (rd s c a).toNat
    let n := (rd s c b).toNat
    let carry := 64 * ceilDiv n 64
    let kind := num / 2 ^ 60
    if 4096 < n ∨ (kind ≠ 4 ∧ kind ≠ 5) ∨ x.tickets.any (fun t => t.num == num && !t.bound) = false
        ∨ beyondCarry s num carry = true then .fault s St.illegalInstr
    else if settled s c = false then .stall
    else .ends s (parkChain c num carry len)

/-! ### `POST` and `DELAY` -/

/-- Fields of a `POST` block (R264). -/
def postFieldsOk (b : List Byte) : Bool :=
  decide (fieldAt b 0 2 < 2 ^ 14 ∧ fieldAt b 4 1 < 4 ∧ (refAt b 16).len ≤ 8192) && rsvdOk b 5 3 && rsvdOk b 24 8
    && (refAt b 16).valid && (fieldAt b 4 1 == 0 || fieldAt b 8 8 == 0)

/-- Status of a `POST` (R264). -/
def postCheck (s : State) (x : Item) (b : List Byte) : Nat :=
  if postFieldsOk b = false then St.paramInvalid
  else
    let st := targetCheck s x.imageDom none (fieldAt b 0 2) (fieldAt b 2 2)
    if st ≠ 0 then st else roomCheck s (fieldAt b 0 2)

/-- Entries of the delay pool (R296). -/
def delayPool : Nat := 1048576

/-- Delay entries in use, reserved ones included (R266). -/
def delayUse (s : State) : Nat := s.dsp.delay.length + (s.dsp.reserved.filter fun r => r.due.isSome).length

/-- The new item (R264, R279): a delayed item's deadline waits for its release. -/
def postedItem (s : State) (c : CoreId) (x : Item) (b : List Byte) (delayed : Bool) : Item × State :=
  let q := fieldAt b 0 2
  let cfg := (alGet (cfgV s).queues q)
  let cls := fieldAt b 4 1
  let dl := fieldAt b 8 8
  let off := (cfg.map (·.c0Offset)).getD 0
  ({ serial := s.dsp.nextSerial, origin := if delayed then .delayed else .posted, inst := (cfg.map (·.inst)).getD 0
     dom := x.imageDom, queue := q, cls := cls, entry := fieldAt b 2 2
     deadline := if cls = 0 ∧ dl = 0 ∧ delayed = false then s.mer.t + off else dl
     admitted := s.mer.t, payload := readRef s c x (refAt b 16) },
   { s with dsp := { s.dsp with nextSerial := s.dsp.nextSerial + 1 } })

/-- Commit whose visibility the chain's posts wait for (R267). -/
def heldBy (s : State) (x : Item) : Option Nat :=
  match x.committed with
  | some n => if s.ksc.v < n then some n else none
  | none => none

/-- Enqueue an item, or reserve its entry (R266, R267); a sample's re-run enqueues nothing (log 36). -/
def enqueue (s : State) (x y : Item) (due : Option Nat) : State :=
  if x.sample.isSome then s
  else if x.tx.isSome ∨ (heldBy s x).isSome then
    let r : Reserved := { item := y, due := due, owner := x.serial, csn := if x.tx.isSome then none else heldBy s x }
    { s with dsp := { s.dsp with reserved := s.dsp.reserved ++ [r] } }
  else match due with
    | some t => addDelay s y t (decide (s.mer.t + 2 ^ 24 ≤ t))
    | none => addWork s y

/-- A refused `POST` or `DELAY`: counted against the instance of the queue that it names, and traced (Table 6.5). -/
def refusePost (s : State) (c : CoreId) (x : Item) (d : GReg) (b : List Byte) (delayed : Bool) (st : Nat) : State :=
  let target := (alGet (cfgV s).queues (fieldAt b 0 2)).map (·.inst)
  let y := (postedItem s c x b delayed).1
  pushG (traceItem s 3 y 0 st) c { reg := d, value := BitVec.ofNat 64 st, status := st, target := target }

/-- `POST`, or `DELAY` with a due time (R264, R265). -/
def runPost (i : Issue) (op : Op) (d a : GReg) (due : State → Option Nat) (s : State) : State :=
  runOp i op s fun s x _ =>
    let c := i.core
    withBlock s c x a 32 (fun b => [(refAt b 16, false)]) fun _ b =>
      if txClosing x = true ∨ ((refAt b 16).valid && bytesBusy s c (refAt b 16)) = true then .stall
      else
        let t := s.mer.t
        let st := postCheck s x b
        let st := if st ≠ 0 then st else match due s with
          | some u => if t + 2 ^ 24 * tickMs ≤ u then St.paramInvalid
            else if delayPool ≤ delayUse s then St.delayFull else 0
          | none => 0
        if st ≠ 0 then .next { s := refusePost s c x d b (due s).isSome st }
        else
          let (y, s) := postedItem s c x b (due s).isSome
          let s := enqueue s x y ((due s).map fun u => max u (t + 1))
          .next { s := pendStatus s c d 0 }

/-- POST (R264, R266, R267). -/
def execPost (i : Issue) (d a : GReg) (s : State) : Host.Outcome State Fault Refusal :=
  .next <| runPost i (.svc .post d a 0) d a (fun _ => none) s

/-- DELAY (R265 to R267): a due time not ahead of T is the next tick. -/
def execDelay (i : Issue) (d a b : GReg) (s : State) : Host.Outcome State Fault Refusal :=
  .next <| runPost i (.svc .delay d a b) d a (fun s => some (rd s i.core b).toNat) s

/-! ### The journal -/

/-- Change the open transaction of the item on core `c`. -/
def setTx (s : State) (c : CoreId) (t : Option Tx) : State := modItem s c fun x => { x with tx := t }

/-- JBEGIN (R268). -/
def execJbegin (i : Issue) (d : GReg) (s : State) : Host.Outcome State Fault Refusal :=
  .next <| runOp i (.svc .jbegin d 0 0) s fun s x _ =>
    let c := i.core
    if txClosing x then .stall
    else if x.tx.isSome then .next { s := pendStatus s c d St.journalState }
    else .next { s := pendStatus (setTx s c (some {})) c d 0 }

/-- A record that `JPUT` takes: a profile record is committed by its ceremony alone (R315, R782). -/
def parseJput (b : List Byte) : Option ConfRec :=
  match parseRec b with
  | some (.profile _) => none
  | r => r

/-- Items 2 to 7 of R270 on the bytes of a record: its status, and the record where it passes. -/
def jputCheck (s : State) (x : Item) (n : Nat) (b : List Byte) : Nat × Option ConfRec :=
  if x.priv = false then (St.notAuthorised, none)
  else match x.tx with
    | none => (St.journalState, none)
    | some t =>
      if n < 16 ∨ 1024 < n then (St.paramInvalid, none)
      else if t.fits n = false then (St.journalLimit, none)
      else match parseJput b with
        | none => (St.paramInvalid, none)
        | some r =>
          let st := checkRecord s (cfgAt s x.snap) r (txCfg s x.snap t)
          if st ≠ 0 then (st, some r)
          else if quorumOk s r = false then (St.quorumRequired, some r)
          else (0, some r)

/-- Add a checked record, reserving the ceremony that authorises it (R418). -/
def addConf (s : State) (c : CoreId) (x : Item) (t : Tx) (n : Nat) (r : ConfRec) : State :=
  let cer := (authorising s r).map (·.number)
  let s := match cer with
    | some m => modCer s m fun y => { y with reservedBy := some x.serial }
    | none => s
  setTx s c (some { t with recs := t.recs ++ [{ tag := 0, recd := .conf r, size := n }], ceremonies := t.ceremonies ++ cer.toList })

/-- JPUT (R268 to R270); a rejected image is an alarm (R146). -/
def execJput (i : Issue) (d a b : GReg) (s : State) : Host.Outcome State Fault Refusal :=
  .next <| runOp i (.svc .jput d a b) s fun s x _ =>
    let c := i.core
    let off := (rd s c a).toNat
    let n := (rd s c b).toNat
    match blockFault off n with
    | some st => .fault s st
    | none =>
      if txClosing x = true ∨ bytesBusy s c (rangeOf .ldm off n) = true then .stall
      else
        let (st, r) := jputCheck s x n (Mem.read (s.core c).ldm off n)
        let s := match r, x.tx with
          | some r, some t => if st = 0 then addConf s c x t n r
            else match r with
              | .imageLoad _ m _ _ => if st = St.imageRejected then alarmEvent s 26 m else s
              | _ => s
          | _, _ => s
        .next { s := pendStatus s c d st }

/-- Every k register that holds one of these keys is emptied (R272), and their cache entries are free again (log 107). -/
def emptyKeys (s : State) (c : CoreId) (l : List KeyName) : State :=
  let s := modCtx s c fun y => { y with k := y.k.map fun r => r.filter fun k => !l.contains k.name }
  l.foldl uncache s

/-- Discard the open transaction (R272). -/
def discardTx (s : State) (c : CoreId) (x : Item) (t : Tx) : State := emptyKeys (setTx (releaseTx s x) c none) c (createdKeys t)

/-- The retention entry that a commit names (R636): the request's own, or the one that its `JCOMMIT` creates where the
table has room (R596); none once the session has ended (R605). -/
def requesterOf (s : State) (x : Item) : Option Requester :=
  match x.origin, x.sess with
  | .host, some id =>
    if (findSess s id).isSome && ((findRet s id x.reqId).isSome || retRoom s id (replyRoom s x.queue)) then some { sess := id, reqId := x.reqId, digest := x.digest } else none
  | _, _ => none

/-- The entry that a successful `JCOMMIT` creates (R596). -/
def retainCommit (s : State) (q : Nat) (r : Option Requester) : State :=
  match r with
  | some r => if (findRet s r.sess r.reqId).isSome then s else addRet s r.sess r.reqId r.digest (replyRoom s q)
  | none => s

/-- Posts reserved in a transaction take its CSN, or leave at once where it took none (R266). -/
def settlePosts (s : State) (x : Item) (csn : Option Nat) : State :=
  match csn with
  | some n =>
    let f := fun r : Reserved => if r.owner = x.serial ∧ r.csn = none then { r with csn := some n } else r
    { s with dsp := { s.dsp with reserved := s.dsp.reserved.map f } }
  | none =>
    let mine := fun r : Reserved => r.owner == x.serial && r.csn.isNone
    match heldBy s x with
    | some n =>
      { s with dsp := { s.dsp with reserved := s.dsp.reserved.map fun r => if mine r then { r with csn := some n } else r } }
    | none =>
      let go := s.dsp.reserved.filter mine
      go.foldl releasePost { s with dsp := { s.dsp with reserved := s.dsp.reserved.filter fun r => !mine r } }

/-- The handles of keys that the chain has created carry the CSN of their commit (R255, Table 8.2). -/
def stampKeys (s : State) (c : CoreId) (l : List KeyName) (n : Nat) : State :=
  let stamp := fun k : KeyRec => if l.contains k.name then { k with csnCreated := n, csnChanged := n } else k
  modCtx s c fun y => { y with k := y.k.map fun r => r.map stamp }

/-- `JCOMMIT` of a sample's re-run (R644): the check of R51 against the commits that the active unit's own check met, then `OK`
with that unit's CSN; nothing is applied. -/
def commitSample (s : State) (c : CoreId) (x : Item) (m : Sample) (t : Tx) : Nat × State :=
  let recs := t.recs.map (·.recd)
  let st :=
    if s.prl.state = .divergent then St.divergent
    else if conflictsWith s x.snap recs (fun n => decide (m.csn = m.snap ∨ n < m.csn)) then St.commitConflict else 0
  if st ≠ 0 ∨ recs.isEmpty then (st, discardTx s c x t)
  else (0, modItem (setTx s c none) c fun y => { y with committed := some m.csn, ranRecs := sha3_256 (commitBytes recs) })

/-- Commit the transaction `t` of the item `x` on core `c`: its status and the state (R271, R272). -/
def commitOwn (s : State) (c : CoreId) (x : Item) (t : Tx) : Nat × State :=
  let q := requesterOf s x
  let (r, s) := tryCommit s x.snap (t.recs.map (·.recd)) t.ceremonies q
  if r.status = 0 then
    let s := retainCommit (settlePosts (setTx s c none) x r.csn) x.queue q
    (0, match r.csn with
      | some n =>
        modItem (stampKeys s c (createdKeys t) n) c fun y =>
          { y with committed := some n, c0 := { y.c0 with calls := true } }
      | none => s)
  else (r.status, discardTx s c x t)

/-- Close the transaction `t` of the item `x` on core `c`. -/
def commitTx (s : State) (c : CoreId) (x : Item) (t : Tx) : Nat × State :=
  match x.sample with
  | some m => commitSample s c x m t
  | none => commitOwn s c x t

/-- Commit or discard the open transaction of core `c`: its status and the state. -/
def closeTx (s : State) (c : CoreId) (commit : Bool) : Nat × State :=
  match (s.core c).item with
  | none => (0, s)
  | some x => match x.tx with
    | none => (if commit then St.journalState else 0, s)
    | some t => if commit then commitTx s c x t else (0, discardTx s c x t)

/-- The key instructions issued before a `JCOMMIT` or `JABORT` have completed, and the key store takes commits (R404, R819). -/
def closeReady (s : State) (c : CoreId) (commit : Bool) : Bool := (s.core c).pendK.all (·.late) && (!commit || kscOn s)

/-- `JCOMMIT` or `JABORT` at issue: it closes the transaction, or waits with it closing (R817, R819). -/
def issueClose (s : State) (c : CoreId) (x : Item) (d : GReg) (commit : Bool) : Effect :=
  if txClosing x then .stall
  else if x.tx.isSome = true ∧ closeReady s c commit = false then
    .next { s := pushG (setTx s c (x.tx.map fun t => { t with closing := true })) c { reg := d, wait := .keys commit } }
  else
    let (st, s) := closeTx s c commit
    .next { s := if commit then pendStatus s c d st else setLast s c st }

/-- JCOMMIT (R267, R268, R271, R272, R817, R819). -/
def execJcommit (i : Issue) (d : GReg) (s : State) : Host.Outcome State Fault Refusal :=
  .next <| runOp i (.svc .jcommit d 0 0) s fun s x _ => issueClose s i.core x d true

/-- JABORT (R272, R817, R819). -/
def execJabort (i : Issue) (s : State) : Host.Outcome State Fault Refusal :=
  .next <| runOp i (.svc .jabort 0 0 0) s fun s x _ => issueClose s i.core x 0 false

/-- A result that is ready is written; a `JCOMMIT` or `JABORT` that waited closes its transaction then. -/
def readyG (s : State) (c : CoreId) (p : PendG) : Option State :=
  match p.wait with
  | .keys commit =>
    if closeReady s c commit then
      let (st, s) := closeTx s c commit
      let k := s.core c
      let s := s.setCore c { k with pendK := k.pendK.map fun q => { q with late := false } }
      some (writeG s c { p with value := BitVec.ofNat 64 st, status := st })
    else none
  | _ => finishG s c p

/-- SERVICE_RESULT_READY (R211, R214, R817): the oldest result for register `d`. -/
def execServiceResultReady (c : CoreId) (d : GReg) (s : State) : Host.Outcome State Fault Refusal :=
  .next <| match takeFirst (fun p : PendG => p.reg == d) (s.core c).pendG with
  | none => s
  | some (p, rest) =>
    match readyG (s.setCore c { s.core c with pendG := rest }) c p with
    | some s => s
    | none => s


end Sys2Proof.Machine
end

