-- ==== Sys2Proof/Machine/Dispatcher.lean ====
section
/-! DEFINITION. The dispatcher (chapter 06): the choice of R295, dispatch and continuation start (R111 to R124, R251),
deadlines (R281 to R283), delay lists (R296 to R300), credits (R292) and the trace. -/

namespace Sys2Proof.Machine

/-! ### The hold (R285 to R289) -/

/-- H_k: held cores of a crew (R288). -/
def holdPerCrew (s : State) : Nat := ceilDiv (holdSum (cfgV s) s.pwr.effective) s.variant.crews

/-- Cores of a crew. -/
def crewCores (k : Nat) : List CoreId := (List.finRange 64).filter fun c => crewOf c == k

/-- Free cores of a crew, ascending (R277). -/
def freeCores (s : State) (k : Nat) : List CoreId := (crewCores k).filter fun c => (s.core c).item.isNone

/-- h of an instance (R285). -/
def holdOf (s : State) (i : Nat) : Nat := match (cfgV s).share i with
  | some sh => coreEquiv s.pwr.effective sh
  | none => 0

/-! ### Class 0 (R279 to R283) -/

/-- Order of class 0 (R280): deadline, admission, queue. -/
def earlier (a b : Item) : Bool :=
  decide (a.deadline < b.deadline) || (a.deadline == b.deadline &&
    (decide (a.admitted < b.admitted) || (a.admitted == b.admitted && decide (a.queue < b.queue))))

/-- The earliest class-0 item that `p` picks. -/
def earliest (l : List Work) (p : Work → Bool) : Option Work :=
  (l.filter fun w => w.item.cls == 0 && p w).foldl (fun best w => match best with
    | some b => if earlier w.item b.item then some w else some b
    | none => some w) none

/-- The deadline of a class-0 candidate has passed (R281 to R283); suspended in ADRIFT and ACQUIRING (R81, R83). -/
def missed (s : State) (w : Work) : Bool :=
  w.carry.isNone && w.item.cls == 0 && s.mer.state != .adrift && s.mer.state != .acquiring && decide (w.item.deadline < s.mer.t)

/-- Take an item out of the ready lists. -/
def takeWork (s : State) (w : Work) : State := modWork s fun l => l.filter fun v => v.item.serial != w.item.serial

/-- Answer or discard a class-0 item whose deadline has passed (R281, R283). -/
def missDeadline (s : State) (w : Work) : State :=
  let s := traceItem (takeWork s w) (if w.item.origin = .host then 5 else 7) w.item 0 St.deadlineMissed
  dropItem s w.item (some St.deadlineMissed)

/-! ### Classes 1 to 3 (R292 to R295) -/

/-- `quantum` (Table 6.8). -/
def quantum (s : State) : Nat := max 256 (fld s 0x0002000C 0 16)

/-- Weight of an instance. -/
def weightOf (s : State) (i : Nat) : Nat := max 1 ((((cfgV s).share i).map (·.weight)).getD 1)

/-- Deficit of an instance in a class. -/
def deficit (s : State) (c i : Nat) : Int := (alGet s.dsp.deficits (c, i)).getD 0

/-- Turns until an instance's deficit is positive. -/
def turns (s : State) (c i : Nat) : Nat :=
  if 0 < deficit s c i then 0 else (-(deficit s c i)).toNat / (weightOf s i * quantum s) + 1

/-- Items that may be assigned: on a unit that serves all, but while it hands its work over the continuations alone (R651); on a
standby the continuations of samples alone (R644). -/
def assignable (s : State) (w : Work) : Bool :=
  if serves s then w.carry.isSome || !s.prl.yielding else w.item.origin == .sample

/-- READY items of an instance in a class. -/
def readyOf (s : State) (c i : Nat) : List Work :=
  s.dsp.work.filter fun w => w.item.cls == c && w.item.inst == i && assignable s w

/-- Walk the ring of class `c` to an instance with a positive deficit (`drr_next`), past those without an item that may be
assigned; the cursor is the ring's head. -/
def drrWalk (c : Nat) : Nat → State → Option Nat × State
  | 0, s => (none, s)
  | n + 1, s => match vget s.dsp.rings c [] with
    | [] => (none, s)
    | i :: rest =>
      if (readyOf s c i).isEmpty then drrWalk c n { s with dsp := { s.dsp with rings := vset s.dsp.rings c (rest ++ [i]) } }
      else if 0 < deficit s c i then (some i, s)
      else drrWalk c n { s with dsp := { s.dsp with
        deficits := alSet s.dsp.deficits (c, i) (deficit s c i + (weightOf s i * quantum s : Nat))
        rings := vset s.dsp.rings c (rest ++ [i]) } }

/-- Visits after which the walk ends. -/
def drrFuel (s : State) (c : Nat) : Nat :=
  let ring := vget s.dsp.rings c []
  let n := (ring.filter fun i => !(readyOf s c i).isEmpty).map (turns s c)
  ring.length * (n.foldl (fun a b => min a b) (n.head?.getD 0) + 1) + 1

/-- Next queue of an instance in round robin with a READY item of the class, and that queue's head. -/
def nextOfInst (s : State) (c i : Nat) : Option Work :=
  let mine := readyOf s c i
  let qs := sortAsc (firsts (mine.map (·.item.queue)))
  let last := alGet s.dsp.lastQueue (c, i)
  let q := match last with
    | some l => match qs.find? fun q => decide (l < q) with
      | some q => some q
      | none => qs.head?
    | none => qs.head?
  q.bind fun q => mine.find? fun w => w.item.queue == q

/-- `drr_next(c)`. -/
def drrNext (s : State) (c : Nat) : Option Work × State :=
  match drrWalk c (drrFuel s c) s with
  | (some i, s) => match nextOfInst s c i with
    | some w => (some w, { s with dsp := { s.dsp with lastQueue := alSet s.dsp.lastQueue (c, i) w.item.queue } })
    | none => (none, s)
  | (none, s) => (none, s)

/-- The class has a READY item. -/
def readyClass (s : State) (c : Nat) : Bool := s.dsp.work.any fun w => w.item.cls == c && assignable s w

/-- The first of the classes 1 to 3 that `p` picks and that has a READY item. -/
def firstClass (s : State) (p : Nat → Bool) : Option Nat := [1, 2, 3].find? fun c => p c && readyClass s c

/-! ### `pick` -/

/-- What `pick` answers. -/
structure Pick where
  work : Option Work := none
  held : Bool := false
  promoted : Bool := false

/-- `pick(k)` (R295), with R281 applied to every class-0 candidate. While the power cap limits, only held items (R785). -/
def pick (k : Nat) : Nat → State → Pick × State
  | 0, s => ({}, s)
  | n + 1, s =>
    let hold := holdPerCrew s
    let running := heldInCrew s k
    let reserved := fun w : Work =>
      w.carry.isNone && w.item.reserved && assignable s w && decide (heldOfInst s w.item.inst < holdOf s w.item.inst)
    match (if running < hold then earliest s.dsp.work reserved else none) with
    | some w => if missed s w then pick k n (missDeadline s w) else ({ work := some w, held := true }, s)
    | none =>
      if (freeCores s k).length - 1 < hold - running ∨ s.pwr.limiting = true then ({}, s)
      else match firstClass s fun c => decide (0 < vget s.dsp.credits c 0) with
        | some c => let (w, s) := drrNext s c; ({ work := w, promoted := true }, s)
        | none => match earliest s.dsp.work (assignable s) with
          | some w => if missed s w then pick k n (missDeadline s w) else ({ work := some w }, s)
          | none => match firstClass s fun _ => true with
            | some c => let (w, s) := drrNext s c; ({ work := w }, s)
            | none => ({}, s)

/-! ### Dispatch (R111, R118, R120 to R124) -/

/-- The image bound to a queue in a configuration, and the entry's code offset. -/
def boundEntry (s : State) (cfg : Cfg) (x : Item) : Option (Image × Nat) :=
  match cfg.binding x.queue with
  | some (d, i, v) => match findImage s d i v with
    | some im => (imageEntry im x.entry).map fun w => (im, w % 2 ^ 24)
    | none => none
  | none => none

/-- Clear LDM where the core's previous item belonged to another instance (R123), and both check-value contexts. -/
def readyCore (s : State) (c : CoreId) (inst : Nat) : State :=
  let k := s.core c
  let s := s.setCore c { k with
    ldm := if k.owner = some inst then k.ldm else []
    pendG := [], pendK := [], cycles := 0, since := now s, avail := [], scrLate := [] }
  { s with cvctx := vset (vset s.cvctx (cvIndex c 0) {}) (cvIndex c 1) {} }

/-- Registers at the dispatch of a request item (Table 3.1). -/
def startCtx (x : Item) (cap pc : Nat) : Ctx :=
  (((({ pc := pc } : Ctx).wg 1 (BitVec.ofNat 64 x.payload.length)).wg 2 (BitVec.ofNat 64 cap)).wg 3 (BitVec.ofNat 64 x.entry))

/-- Start an item on core `c` at snapshot `n` (R120): its image and budget; none where its queue has no such entry then. -/
def startAt (s : State) (c : CoreId) (x : Item) (held : Bool) (n : Nat) : Option State :=
  match boundEntry s (cfgAt s n) x, alGet (cfgAt s n).queues x.queue with
  | some (im, pc), some b =>
    let s := readyCore s c x.inst
    let y := { x with held := held, snap := n, budget := b.budget, replyCap := b.replyCap, rpl := [], image := some im }
    some (s.setCore c { s.core c with ctx := startCtx x b.replyCap pc, item := some y, owner := some x.inst })
  | _, _ => none

/-- Dispatch a new item to core `c` at snapshot V; no entry answers `BAD_FORMAT` (R121). -/
def startItem (s : State) (c : CoreId) (x : Item) (held : Bool) : State :=
  (startAt s c x held s.ksc.v).getD (dropItem (traceItem s 3 x 0 St.badFormat) x (some St.badFormat))

/-- Take a delivered job out of its pool. -/
def takeDone (s : State) (num : Nat) : Option PoolDone × State :=
  match takeFirst (fun d : PoolDone => d.num == num) s.bne.done with
  | some (d, l) => (some d, { s with bne := { s.bne with done := l } })
  | none => match takeFirst (fun d : PoolDone => d.num == num) s.lte.done with
    | some (d, l) => (some d, { s with lte := { s.lte with done := l } })
    | none => (none, s)

/-- Outputs and write-back fields of the bound job (R251), and the handle of a derived secret (R481, R505). -/
def deliver (s : State) (c : CoreId) (d : PoolDone) : State :=
  let good := d.status == 0
  let s := if good then writeRef s c (d.outs.getD 0 {}) d.out else s
  let s := writeSpace s c .ldm (d.blk + 48) (leBytes 4 (if good then d.out.length else 0) ++ leBytes 4 0)
  match d.handle with
  | some (r, k) => if good then modCtx s c fun x => x.wk r (some k) else s
  | none => s

/-- Start a continuation on core `c` (R129, R214, R222, R251, Table 3.6). -/
def startCont (s : State) (c : CoreId) (x : Item) (y : Carry) : State :=
  let st := ((x.tickets.find? fun t => t.num == y.ticket).bind (·.done)).getD 0
  let s := readyCore s c x.inst
  let z := { x with
    conts := x.conts + 1
    csLast := st
    tickets := x.tickets.filter fun t => t.num != y.ticket }
  let s := s.setCore c { s.core c with ctx := y.ctx, ldm := y.ldm, item := some z, owner := some x.inst }
  let (d, s) := takeDone s y.ticket
  let s := match d with
    | some d => deliver s c d
    | none => s
  moveTo s c y.ctx.pc y.ctx.loop

/-- Assign a picked item to a core. -/
def assign (s : State) (c : CoreId) (p : Pick) (w : Work) : State :=
  let s := takeWork s w
  let x := { w.item with held := p.held }
  let s := if p.promoted then traceItem s 6 x 0 0 else s
  let s := traceItem s 0 x c.val 0
  match w.carry with
  | some y => startCont s c x y
  | none => startItem s c x p.held

/-- The dispatcher assigns (R278): it is enabled, no rebuild pause runs, and this unit serves or, for samples, stands by. -/
def mayAssign (s : State) (k : Nat) : Bool :=
  blockEn s 2 0 && (serves s || roleOf s == .standby) && !s.mec.paused && decide (k < s.variant.crews) && crewOn s k

/-- DISPATCH (R277, R295): the lowest-numbered free core of a crew takes its next item. -/
def execDispatch (crew : Nat) (s : State) : Host.Outcome State Fault Refusal :=
  .next <|
    if mayAssign s crew = false then s
    else match freeCores s crew with
      | [] => s
      | c :: _ => match pick crew (s.dsp.work.length + 1) s with
        | (p, s) => match p.work with
          | some w => assign s c p w
          | none => s

/-! ### Re-runs of samples (R644, R645) -/

/-- The sample that this unit is to run: that of an arbitration whose round lacks this unit's result, or on the standby one
that is pending. Its snapshot has been applied, and no chain runs it. -/
def sampleDue (s : State) (sess reqId : Nat) : Option Sample :=
  let m := ((s.prl.arbitrations.find? fun a => isReq a.sample sess reqId && a.rerun.isNone).map (·.sample)).orElse
    fun _ => if roleOf s = .standby then s.prl.samples.find? (isReq · sess reqId) else none
  m.filter fun m =>
    decide (m.snap ≤ s.ksc.v) && !(liveChains s).any fun x => x.sample.any (isReq · sess reqId)

/-- The item of a re-run: at class 3, with nothing to answer (R644). -/
def sampleItem (s : State) (m : Sample) : Item :=
  { serial := s.dsp.nextSerial, origin := .sample, inst := m.inst, dom := m.dom, queue := m.queue, cls := 3, entry := m.entry
    deadline := m.deadline, admitted := s.mer.t, reqId := m.reqId, payload := m.payload, sample := some m }

/-- SAMPLE_RUN (R644, R645, log 36): the lowest-numbered free core of the crew starts the re-run of the sample, named by its
session and request ID, at its snapshot. -/
def execSampleRun (of : Nat × Nat) (on : ReRun) (s : State) : Host.Outcome State Fault Refusal :=
  .next <| match sampleDue s of.1 of.2, freeCores s on.crew with
  | some m, c :: _ =>
    if mayAssign s on.crew = false then s
    else
      let x := sampleItem s m
      let s := modArb s of.1 of.2 fun a => { a with tests := on.tests }
      let s := { s with dsp := { s.dsp with nextSerial := s.dsp.nextSerial + 1 } }
      (startAt s c x false m.snap).getD s
  | _, _ => s

/-! ### Delay lists (R296 to R300) -/

/-- Release order: due tick, then insertion sequence (R298). -/
def dueBefore (a b : Delayed) : Bool := decide (a.due < b.due) || (a.due == b.due && decide (a.seq < b.seq))

/-- The entry to release next. An entry that is due stands in the fine list, since its bucket began no later (R297). -/
def nextDue (s : State) : Option Delayed :=
  (s.dsp.delay.filter fun d => decide (d.due ≤ s.mer.t)).foldl (fun best d => match best with
    | some b => if dueBefore d b then some d else some b
    | none => some d) none

/-- A released class-0 item without a deadline takes its release tick plus the queue's offset (R279). -/
def releasedItem (s : State) (x : Item) : Item :=
  if x.cls = 0 ∧ x.deadline = 0 then
    { x with deadline := s.mer.t + (((alGet (cfgV s).queues x.queue).map (·.c0Offset)).getD 0) }
  else x

/-- Release up to `n` entries. -/
def releaseDue : Nat → State → State
  | 0, s => s
  | n + 1, s => match nextDue s with
    | none => s
    | some d =>
      let lag := s.mer.t - d.due
      let s := { s with dsp := { s.dsp with
        delay := s.dsp.delay.filter fun e => e.seq != d.seq || e.due != d.due
        lag := max s.dsp.lag (min 0xFFFFFFFF lag) } }
      releaseDue n (joinOrDrop (traceItem s 1 d.item 0 lag) (releasedItem s d.item))

/-- Entries that this tick has released (R298). -/
def releasedNow (s : State) : Nat := if s.dsp.relAt = now s then s.dsp.relCount else 0

/-- DELAY_LIST_RELEASE (R298, R300): at most 16 entries per tick, over all commands of the tick; none while the unit hands its
work over (R651). -/
def execDelayListRelease (s : State) : Host.Outcome State Fault Refusal :=
  .next <| if serves s && !s.prl.yielding then
    let used := releasedNow s
    let t := releaseDue (16 - used) s
    { t with dsp := { t.dsp with relAt := now s, relCount := used + (s.dsp.delay.length - t.dsp.delay.length) } }
  else s

/-- Buckets whose first tick T has reached move to the fine list (R297). -/
def moveBuckets (s : State) : State :=
  { s with dsp := { s.dsp with delay := s.dsp.delay.map fun d =>
    if d.due / tickMs * tickMs ≤ s.mer.t then { d with coarse := false } else d } }

/-- COARSE_BUCKET_MOVE (R297). -/
def execCoarseBucketMove (s : State) : Host.Outcome State Fault Refusal := .next (moveBuckets s)

/-! ### Continuations, credits, trace -/

/-- CONTINUATION_MATCH (R302): the parked chain that bound a completed ticket. -/
def execContinuationMatch (ticket : Nat) (s : State) : Host.Outcome State Fault Refusal :=
  .next <| match s.dsp.parked.find? fun w =>
      (w.carry.map (·.ticket)) == some ticket && w.item.tickets.any (fun t => t.num == ticket && t.done.isSome) with
  | some w => matchCont s w
  | none => s

/-- Credit of class `c` at a 1 ms boundary (R292, Table 6.8). -/
def creditOf (s : State) (c : Nat) : Int := (min 25 (fld s 0x00020010 (8 * (c - 1)) 5) * s.variant.cores * 15000 : Nat)

/-- CLASS_CREDIT_RESET (R292): once for each 1 ms boundary of elapsed time. -/
def execClassCreditReset (s : State) : Host.Outcome State Fault Refusal :=
  .next <| if now s / tickMs ≤ s.dsp.creditMs then s else { s with dsp := { s.dsp with
    creditMs := now s / tickMs
    credits := vset (vset (vset s.dsp.credits 1 (creditOf s 1)) 2 (creditOf s 2)) 3 (creditOf s 3) } }

/-- Empty the trace ring (Table 6.7, `trace_clear`). -/
def clearTrace (s : State) : State :=
  { s with dsp := { s.dsp with trace := [], wptr := 0, wrapped := false, full := false, traceLost := 0, lag := 0 } }

/-- TRACE_CLEAR. -/
def execTraceClear (s : State) : Host.Outcome State Fault Refusal := .next (clearTrace s)

end Sys2Proof.Machine
end

