-- ==== Sys2Proof/Machine/LcState.lean ====
section
/-! DEFINITION. The life-cycle state (chapter 19): how the OTP words give it (R736) and what it permits (Table 19.6). -/

namespace Sys2Proof.Machine

/-- Life-cycle states (Table 19.6). -/
inductive Lc where
  | raw | testLocked | testUnlocked | provisioning | deployed | rma | scrapped | invalid
deriving DecidableEq, Repr

/-- Code of a state: Table 19.6, and 0xFF for a field that does not decode (R735). -/
def Lc.code : Lc → Nat
  | .raw => 0 | .testLocked => 1 | .testUnlocked => 2 | .provisioning => 3 | .deployed => 4 | .rma => 5
  | .scrapped => 6 | .invalid => 0xFF

/-- Pattern P_n of a programmed word (R736). -/
def lcPattern (n : Nat) : BitVec 16 := BitVec.ofNat 16 0xA5C3 ^^^ BitVec.ofNat 16 (n * 0x0101)

/-- Word n, from 1, of the life-cycle field. -/
def lcWord (s : State) (n : Nat) : BitVec 16 := vget s.lcf.words (n - 1) 0

/-- Programmed words, where the field decodes (R736): a run from word 1, every other word unprogrammed. -/
def lcWords (s : State) : Option Nat :=
  let run := ((List.range 21).map (· + 1)).takeWhile fun n => lcWord s n == lcPattern n
  let k := run.length
  if ((List.range 24).map (· + 1)).all fun n => decide (n ≤ k) || lcWord s n == 0 then some k else none

/-- State that a number of programmed words gives (Table 19.6). -/
def lcOf (n : Nat) : Lc :=
  if n = 0 then .raw else if n = 18 then .provisioning else if n = 19 then .deployed else if n = 20 then .rma
  else if 21 ≤ n then .scrapped else if n % 2 = 1 then .testLocked else .testUnlocked

/-- The life-cycle state; that of transitions 2 and 3 takes effect at the next start (Table 19.7). -/
def lcState (s : State) : Lc := match s.lcf.held, lcWords s with
  | some n, _ | none, some n => lcOf n
  | none, none => .invalid

/-- Full debug and the factory modes are open (Table 19.6, R745). -/
def Lc.factory : Lc → Bool
  | .raw | .testUnlocked => true
  | _ => false

end Sys2Proof.Machine
end

