-- ==== Sys2Proof/Machine/Wsp.lean ====
section
/-! DEFINITION. Received WSP frames: the checks of Table 14.1, acceptance and acknowledgement (R584 to R594), records and
fragments (R556 to R561), and what each frame type does on an established session. -/

namespace Sys2Proof.Machine

/-! ### Table 14.1 -/

/-- Protected frame types (Table 14.3). -/
def protectedType (t : Nat) : Bool := decide (3 ≤ t ∧ t ≤ 9)

/-- Types that a host may send (Table 14.3, R552). -/
def hostType (t : Nat) : Bool := t == 1 || t == 3 || t == 4 || t == 5 || t == 7 || t == 8 || t == 9 || t == 10

/-- Flags that a type may use (Table 14.3). -/
def flagMask (t : Nat) : Nat :=
  if t = 3 then 1 else if t = 4 then 7 else if t = 5 then 6 else if t = 7 ∨ t = 8 ∨ t = 9 then 2
  else if t = 10 then 16 else 0

/-- The unit has the port: a host port of the variant, or the management port (4). -/
def portPresent (s : State) (p : Nat) : Bool := p == 4 || decide (p < s.variant.hostPorts)

/-- The VLAN of a frame is accepted (R544). -/
def vlanOk (s : State) (p : Nat) (v : Option Nat) : Bool :=
  match v with
  | none => hptFld s p 0x004 3 1 == 1
  | some id => (portOf s p).vlan.toList.any fun e => bitOf e 12 && e % 4096 == id

/-- Value of four address registers: `_0` holds the first octets. -/
def ip6Of (s : State) (p off : Nat) : Nat :=
  [0, 4, 8, 12].foldl (fun n i => n * 2 ^ 32 + hptFld s p (off + i) 0 32) 0

/-- The port carries a service address of a family. -/
def hasService (s : State) (p : Nat) (v6 : Bool) : Bool :=
  decide (p < 4) && hptFld s p 0x004 (if v6 then 2 else 1) 1 == 1

/-- The service address of a family; zero means none. -/
def serviceAddr (s : State) (p : Nat) (v6 : Bool) : Nat := if v6 then ip6Of s p 0x024 else hptFld s p 0x01C 0 32

/-- Length of the Ethernet frame that brings a datagram: header, tag, IP header, UDP datagram and FCS (R546). -/
def etherLen (f : Frame) : Nat :=
  14 + (if f.path.vlan.isSome then 4 else 0) + (if f.path.v6 then 40 else 20) + f.link.udpLen + 4

/-- `addr` is the port's service address of a family (R547). -/
def isService (s : State) (p : Nat) (v6 : Bool) (addr : Nat) : Bool :=
  hasService s p v6 && addr != 0 && addr == serviceAddr s p v6

/-- `addr` is the port's unit address of a family; zero means none (R547). -/
def isUnit (s : State) (p : Nat) (v6 : Bool) (addr : Nat) : Bool :=
  addr != 0 && addr == (if v6 then ip6Of s p 0x08C else hptFld s p 0x088 0 32)

/-- The frame was sent to a service address of its port. -/
def toService (s : State) (f : Frame) : Bool := isService s f.port f.path.v6 f.link.dst

/-- The unit answers on the service addresses of the port (R547). -/
def serviceOn (s : State) (p : Nat) : Bool := decide (p < 4) && (portOf s p).service

/-- Row 2 of Table 14.1 below the addresses: IPv4 without options, a valid header checksum and no fragment; IPv6 with UDP as its
next header. -/
def ipOk (v6 : Bool) (l : Link) : Bool := if v6 then l.next == 17 else l.ihl == 20 && l.hdrSum && !l.fragment

/-- Row 1 of Table 14.1 (R544): the destination MAC address and the VLAN are accepted. -/
def macVlanOk (s : State) (p : Nat) (mac : MacDest) (vlan : Option Nat) : Bool := mac != .other && vlanOk s p vlan

/-- Rows 1 to 3 of Table 14.1, and the length of R546 (log 69). -/
def linkOk (s : State) (f : Frame) : Bool :=
  macVlanOk s f.port f.link.mac f.path.vlan && ipOk f.path.v6 f.link
    && (toService s f || isUnit s f.port f.path.v6 f.link.dst)
    && f.link.udpPort == hptFld s f.port 0x00C 0 16 && (f.link.sum == .good || (f.link.sum == .zero && !f.path.v6))
    && decide (etherLen f ≤ 9216)

/-- Rows 4 and 5 of Table 14.1. -/
def headerOk (f : Frame) : Bool :=
  let h := f.hdr
  decide (f.link.udpLen = 8 + 40 + h.plen + (if protectedType h.typ then 16 else 0) ∧ f.body.length = h.plen ∧
    f.tag.length = if protectedType h.typ then 16 else 0)
    && h.ver == 1 && hostType h.typ && h.rsvd == 0 && h.flags &&& flagMask h.typ == h.flags

/-- Generation under which a frame of sequence `q` is verified (R576). -/
def rxGen (x : Session) (q : Nat) : Option Nat :=
  match x.rxSwitch with
  | some w => if w ≤ q then some x.gen else x.oldGen
  | none => x.oldGen

/-- The frame is a RESYNC. -/
def isResync (f : Frame) : Bool := f.hdr.typ == 9

/-- S_g from the secret of `n` generations before (Table 14.10). -/
def laterSecret (sg : List Byte) (g : Nat) : Nat → List Byte
  | 0 => sg
  | n + 1 => nextSecret (laterSecret sg (g - 1) n) g

/-- Direction keys of a generation: those in the AEAD unit, or derived for a RESYNC of a generation to come (R607). -/
def keysFor (x : Session) (g : Nat) : Option (List Byte) :=
  match alGet x.keys g with
  | some k => some k
  | none => if x.gen < g then some (directionKeys (laterSecret x.sg g (g - x.gen))) else none

/-- Generations under which a frame may verify, in the order in which they are tried: those that have the parity of `phase` of
the generation that its sequence selects (R576), for a RESYNC first c, c + 1 and c + 2 (R607), and on a session that waits for
the answer to its RESYNC the new one and the one before. -/
def tryGens (x : Session) (f : Frame) : List Nat :=
  let l := if x.state = .resyncing then [x.gen, x.gen - 1]
    else if isResync f && x.state != .halfOpen then [x.gen, x.gen + 1, x.gen + 2] ++ (rxGen x f.hdr.seq).toList
    else (rxGen x f.hdr.seq).toList
  l.filter fun g => b2n (bitOf f.hdr.flags 1) == g % 2

/-- Row 7 of Table 14.1 (R555): the generation under which the frame verifies, and the frame with its body in clear. -/
def verifies (x : Session) (f : Frame) : Option (Nat × Frame) :=
  (tryGens x f).findSome? fun g => (keysFor x g).bind fun k =>
    (openBody k true f.hdr f.body f.tag).map fun b => (g, { f with body := b })

/-- The management port serves sessions: in SERVICE, and in Hold-Water under R732. -/
def mgmtServed (s : State) : Bool := s.pwr.mainPower && (inService s || (s.lcf.holdWater && !s.lcf.romHold))

/-- The port serves handshakes and session frames (R547, R583). -/
def portServes (s : State) (p : Nat) : Bool := if p = 4 then mgmtServed s else hptFld s p 0x004 0 1 == 1

/-- This unit serves the session: its port is the management port or has `service` set. -/
def servesSess (s : State) (x : Session) : Bool :=
  s.pwr.mainPower && !x.foreign && (x.port == 4 || (portOf s x.port).service)

/-! ### Acknowledging -/

/-- Send an ACK frame where the host's window leaves it room (R593). -/
def sendAck (s : State) (id : Nat) : State :=
  match findSess s id with
  | some x => if maySend x && decide (x.txSeq < x.peerAck + x.peerWin + 64) then sendFrame s id 5 0 [] else s
  | none => s

/-- What R586 makes of a sequence. -/
inductive RxClass where
  | duplicate | beyond | fresh
deriving DecidableEq, Repr

/-- R586. -/
def rxClass (x : Session) (typ q : Nat) : RxClass :=
  if q < x.rxCum ∨ x.rxSet.contains q = true then .duplicate
  else if q < x.rxCum + x.advWin + (if typ = 5 then 64 else 0) then .fresh else .beyond

/-- Advance `cum_ack` over accepted sequences. -/
def advanceCum : Nat → Nat → List Nat → Nat × List Nat
  | 0, c, l => (c, l)
  | n + 1, c, l => if l.contains c then advanceCum n (c + 1) (l.filter (· != c)) else (c, l)

/-- Accept a sequence (R585). -/
def acceptSeq (x : Session) (q : Nat) : Session :=
  let l := x.rxSet ++ [q]
  let (c, l) := advanceCum l.length x.rxCum l
  { x with rxCum := c, rxSet := l }

/-- Take the path of a frame with the highest sequence so far (R558). -/
def takePath (x : Session) (f : Frame) : Session :=
  match x.pathSeq with
  | some q => if q ≤ f.hdr.seq then { x with path := f.path, pathSeq := some f.hdr.seq } else x
  | none => { x with path := f.path, pathSeq := some f.hdr.seq }

/-- Sequences that a header acknowledges: below `cum_ack`, and those of `sack`. -/
def ackedBy (h : FrameHdr) (q : Nat) : Bool :=
  decide (q < h.cumAck) || (decide (h.cumAck < q ∧ q ≤ h.cumAck + 32) && bitOf h.sack (q - h.cumAck - 1))

/-- A header acknowledges a sequence that was never sent (Table 15.4). -/
def ackViolates (x : Session) (h : FrameHdr) : Bool :=
  decide (x.txSeq < h.cumAck) ||
    (List.range 32).any fun i => bitOf h.sack i && decide (x.txSeq ≤ h.cumAck + 1 + i)

/-- A round-trip sample (R590, RFC 6298). -/
def rttSample (x : Session) (r : Nat) : Session :=
  let first := x.srtt == 0 && x.rttvar == 0
  let srtt := if first then r else (7 * x.srtt + r) / 8
  let var := if first then r / 2 else (3 * x.rttvar + (x.srtt - r) + (r - x.srtt)) / 4
  { x with srtt := srtt, rttvar := var, rto := clamp 3200 1600000 (srtt + max 1 (4 * var)) }

/-- Sequences above `q` that the acknowledgements show accepted. -/
def higherAcked (x : Session) (q : Nat) : Nat := (x.peerAck - q - 1) + (x.peerSet.filter fun n => q < n).length

/-- The sequences of a header's `sack`. -/
def sackSeqs (h : FrameHdr) : List Nat := ((List.range 32).filter fun i => bitOf h.sack i).map fun i => h.cumAck + 1 + i

/-- What a header says the host has accepted, beside what earlier ones said. -/
def takeSack (x : Session) (h : FrameHdr) : Session :=
  let top := max x.peerAck h.cumAck
  { x with peerSet := (x.peerSet ++ (sackSeqs h).filter fun n => !x.peerSet.contains n).filter fun n => decide (top ≤ n) }

/-- The timeout of an unacknowledged ACK frame runs from the moment that some higher sequence is accepted (R591). -/
def startAckTimers (t : Nat) (x : Session) : Session :=
  { x with unacked := x.unacked.map fun f =>
      if f.typ = 5 ∧ f.runs = false ∧ 0 < higherAcked x f.seq then { f with runs := true, rtoAt := t + x.rto } else f }

/-- Frames that three or more higher acknowledgements make due at once (R591): once per RTO for each. -/
def fastDue (s : State) (x : Session) : List Nat :=
  (x.unacked.filter fun f => decide (3 ≤ higherAcked x f.seq ∧ f.fast ≤ now s)).map (·.seq)

/-- Retransmit a frame under the second trigger of R591. -/
def fastResend (id : Nat) (s : State) (q : Nat) : State :=
  resendFrame (modSess s id fun x =>
    { x with unacked := x.unacked.map fun f => if f.seq = q then { f with fast := now s + x.rto } else f }) id q

/-- A frame of the module is acknowledged: its reply's retention entry learns so (R599). -/
def noteAcked (id : Nat) (s : State) (f : TxFrame) : State :=
  f.replies.foldl (fun s r => modRet s id r fun e => { e with acked := true }) s

/-- Acknowledgement information of an accepted frame (R590 to R593, Table 15.4). -/
def takeAck (s : State) (id : Nat) (h : FrameHdr) : State :=
  match findSess s id with
  | none => s
  | some x =>
    if ackViolates x h then closeSess s id St.badFormat 12
    else
      let gone := x.unacked.filter fun f => ackedBy h f.seq
      let samples := (gone.filter fun f => !f.resent).map fun f => now s - f.sentAt
      let s := gone.foldl (noteAcked id) s
      let s := modSess s id fun x =>
        let y := takeSack (samples.foldl rttSample { x with unacked := x.unacked.filter fun f => !ackedBy h f.seq }) h
        startAckTimers (now s) (if y.peerAck ≤ h.cumAck then
          { y with peerAck := h.cumAck, peerWin := h.rwnd, ackedAt := if y.peerAck < h.cumAck then now s else y.ackedAt }
        else y)
      match findSess s id with
      | none => s
      | some y =>
        if y.state = .closing ∧ (y.closeSeq.map (ackedBy h)) = some true then endSession s id
        else flush ((fastDue s y).foldl (fastResend id) s) id

/-! ### Records and fragments -/

/-- A malformed record or message: rows 1 to 3 of Table 1.4 come first for a host request, and what its message type says for a
request to management (log 117). `head` is as much of its header as is there (R550). -/
def badRequest (s : State) (id req : Nat) (head : List Byte) : State :=
  let st := if (findSess s id).any (·.mgmt) then 0 else moduleCheck s
  let st := if st = 0 then St.badFormat else st
  refuse (countStatus s none st) (some id) req st (decide (5 ≤ head.length) && fieldAt head 4 1 % 4 == 0)

/-- The session takes records. -/
def takesRecords (s : State) (id : Nat) : Bool :=
  match findSess s id with
  | some x => x.live && x.state != .closing && (x.mgmt || !s.prl.yielding)
  | none => false

/-- A body was cut short: `bad_body` (R561). -/
def cutShort (s : State) (id : Nat) (body : List Byte) : State :=
  match findSess s id with
  | none => s
  | some x =>
    let s := if x.port < 4 then setBit s (hptAddr x.port 0x008) 4 else s
    if 4 ≤ body.length then badRequest s id (fieldAt body 0 4) body else s

/-- One whole record: a host's is admitted or refused; on a management session a well-formed one is a message that comes as a
command of its own (Table 20.12), and any other is answered here (R560, R754). -/
def takeRecord (s : State) (id : Nat) (hdr payload : List Byte) (stamp : Nat) : State :=
  if (findSess s id).any (·.mgmt) then
    if recordOk hdr payload = false then badRequest s id (fieldAt hdr 0 4) hdr
    else if fieldAt hdr 6 2 = 0x3FFF ∧ 1 ≤ fieldAt hdr 8 2 ∧ fieldAt hdr 8 2 ≤ 13 then s
    else refuse (countStatus s none St.unknownQueue) (some id) (fieldAt hdr 0 4) St.unknownQueue (fieldAt hdr 4 1 % 4 == 0)
  else admitRecord s id hdr payload stamp

/-- Records of a body, from record number `n` on (R559 to R561). -/
def takeRecords (id stamp : Nat) : Nat → Nat → List Byte → State → State
  | 0, _, _, s => s
  | fuel + 1, n, body, s =>
    if body.isEmpty || !takesRecords s id then s
    else
      let len := fieldAt body 10 2
      let whole := 24 + ceilDiv len 8 * 8
      if body.length < 24 ∨ body.length < whole then cutShort s id body
      else
        let s := if 64 ≤ n then badRequest s id (fieldAt body 0 4) body
          else takeRecord s id (body.take 24) ((body.drop 24).take len) stamp
        takeRecords id stamp fuel (n + 1) (body.drop whole) s

/-- Discard the fragments of a message. -/
def dropSegs (s : State) (id msg : Nat) : State :=
  modSess s id fun x => { x with segs := x.segs.filter fun m => m.msg != msg }

/-- A complete segmented request (R557). -/
def takeMessage (s : State) (id msg : Nat) (b : List Byte) (stamp : Nat) : State :=
  let len := fieldAt b 10 2
  if b.length < 24 + len ∨ 24 + ceilDiv len 8 * 8 < b.length ∨ fieldAt b 0 4 ≠ msg then badRequest s id msg b
  else takeRecord s id (b.take 24) ((b.drop 24).take len) stamp

/-- One fragment of a segmented request (R556, R557). -/
def takeFragment (s : State) (id : Nat) (body : List Byte) (stamp : Nat) : State :=
  match findSess s id with
  | none => s
  | some x =>
    if takesRecords s id = false then s
    else if body.length < 8 then cutShort s id body
    else
      let msg := fieldAt body 0 4
      let idx := fieldAt body 4 1
      let count := fieldAt body 5 1
      let old := x.segs.find? fun m => m.msg == msg
      let bad := count < 2 || 8 < count || count ≤ idx || fieldAt body 6 2 != 0
        || (match old with | some m => m.count != count | none => 8 ≤ x.segs.length)
      let first := if idx = 0 then body.drop 8 else ((old.bind fun m => alGet m.parts 0).getD [])
      if bad then badRequest (dropSegs s id msg) id msg first
      else
        let parts := alSet ((old.map (·.parts)).getD []) idx (body.drop 8)
        if parts.length < count then
          let m : Segs := { msg := msg, count := count, parts := parts }
          modSess s id fun x => { x with segs := (x.segs.filter fun m => m.msg != msg) ++ [m] }
        else
          takeMessage (dropSegs s id msg) id msg ((List.range count).flatMap fun i => (alGet parts i).getD []) stamp

/-- A of R279: the last-bit timestamp in whole ticks (R581). -/
def arrivedAt (f : Frame) : Nat := f.stamp / 256

/-- Body of an accepted DATA frame (R587). -/
def takeData (s : State) (id : Nat) (f : Frame) : State :=
  if bitOf f.hdr.flags 0 then takeFragment s id f.body (arrivedAt f) else takeRecords id (arrivedAt f) (f.body.length + 1) 0 f.body s

/-! ### Frames of an established session -/

/-- REKEY_ACK (R575, Table 15.4). -/
def takeRekeyAck (s : State) (id : Nat) (f : Frame) : State :=
  match findSess s id with
  | none => s
  | some x =>
    let g := fieldAt f.body 0 4
    let w := fieldAt f.body 8 8
    let top := (x.rxSet.foldl max x.rxCum)
    let sent := if x.rxSet.isEmpty then decide (x.rxCum ≤ w) else decide (top < w)
    if x.state = .closing then s
    else if x.state = .rekeying ∧ g = x.gen ∧ f.body.length = 16 ∧ rsvdOk f.body 4 4 = true ∧ sent = true then
      modSess s id fun x =>
        { x with state := .established, rxSwitch := some w, genRx := 0, genStart := x.rekeyAt.getD (now s) }
    else closeSess s id St.badFormat 13

/-- The body of a RESYNC: its generation, role and cause; none where malformed. -/
def parseResync (b : List Byte) : Option (Nat × Nat × Nat) :=
  if b.length = 8 ∧ fieldAt b 4 1 ≤ 1 ∧ fieldAt b 5 1 ≤ 1 ∧ rsvdOk b 6 2 = true then
    some (fieldAt b 0 4, fieldAt b 4 1, fieldAt b 5 1)
  else none

/-- What an accepted frame does beside its acknowledgement, by its type. A CLOSE or a RESYNC whose layout or reserved bytes are
wrong is refused with `BAD_FORMAT` (R14, log 117). -/
def takeBody (s : State) (id : Nat) (f : Frame) : State :=
  if f.hdr.typ = 4 then takeData s id f
  else if f.hdr.typ = 7 then takeRekeyAck s id f
  else if f.hdr.typ = 8 then
    (if f.body.length = 8 ∧ rsvdOk f.body 3 5 = true then endSession s id else closeSess s id St.badFormat 12)
  else if f.hdr.typ = 3 ∨ (f.hdr.typ = 9 ∧ (parseResync f.body).isNone = true) then closeSess s id St.badFormat 12
  else s

/-- The acknowledgement that an accepted frame asks for (R588): at once where it fills a gap, lies above one or is a CLOSE
(R604), else within `ack_delay`; none for an ACK frame (R589). -/
def scheduleAck (s : State) (x : Session) (f : Frame) : State :=
  if f.hdr.typ = 5 then s
  else if x.rxCum < f.hdr.seq ∨ x.rxSet ≠ [] ∨ f.hdr.typ = 8 then sendAck s x.id
  else modSess s x.id fun y => { y with ackDue := some (y.ackDue.getD (now s + ackDelay s x.port)) }

/-- A duplicate (R586, R588). -/
def takeDuplicate (s : State) (x : Session) (f : Frame) : State :=
  let s := modPort s x.port fun p => { p with dups := satInc 65535 p.dups }
  if f.hdr.typ == 5 || (match x.dupAckAt with | some t => decide (now s < t) | none => false) then s
  else sendAck (modSess s x.id fun y => { y with dupAckAt := some (now s + ackDelay s x.port) }) x.id

/-- An accepted frame: acknowledgement state, path, key counts, then its body (R585 to R588, R574). -/
def takeFresh (s : State) (x : Session) (f : Frame) (g : Nat) : State :=
  let s := modSess s x.id fun y =>
    let y := takePath (acceptSeq y f.hdr.seq) f
    { y with
      genRx := if g = y.gen ∨ y.rxSwitch = none then y.genRx + 1 else y.genRx
      rekeyReqAt := if bitOf f.hdr.flags 2 && y.rekeyReqAt.isNone then some (now s) else y.rekeyReqAt }
  let s := takeAck s x.id f.hdr
  takeBody (scheduleAck s x f) x.id f

/-- An ordinary frame under R586. -/
def rxOrdinary (s : State) (x : Session) (f : Frame) (g : Nat) : State :=
  match rxClass x f.hdr.typ f.hdr.seq with
  | .duplicate => takeDuplicate s x f
  | .beyond => modPort s x.port fun p => { p with beyond := satInc 65535 p.beyond }
  | .fresh => takeFresh s x f g

/-! ### Resynchronisation (R607 to R611) -/

/-- No other frame of the host has been accepted under generation `g` (R607). -/
def firstUnder (x : Session) (g : Nat) : Bool := decide (x.gen < g) || x.rxSwitch.isNone || x.genRx == 0

/-- Receive state from the peer's RESYNC on (R608): the keys of every earlier generation are erased. -/
def resyncRx (s : State) (x : Session) (f : Frame) (g : Nat) : Session :=
  { withGen (takePath x f) g (laterSecret x.sg g (g - x.gen)) none with
    state := .established, rxCum := f.hdr.seq + 1, rxSet := [], rxSwitch := some f.hdr.seq, genRx := 1
    rekeyReqAt := none, rekeyAt := none, peerWin := f.hdr.rwnd, peerSet := [], lastRx := now s }

/-- A host's RESYNC (R611): closed where the previous one is less than 1 s old, else answered once the anchor of g is mirrored,
which names the answer's sequence as the first under g. It supersedes a rekey in progress (R608). -/
def hostResync (s : State) (x : Session) (f : Frame) (g cause : Nat) : State :=
  let soon := match x.resyncAt with
    | some t => decide (now s < t + tickS)
    | none => false
  if soon then closeSess (modSess s x.id fun y => { y with lastRx := now s }) x.id St.badFormat 14
  else
    let f' := fun y : Session =>
      { resyncRx s y f g with
        peerAck := max y.peerAck y.txSeq, txSwitch := some y.txSeq, awaits := some (.resync cause), mirrored := false }
    sendAnchor (modSess s x.id f') x.id 1 (f' x)

/-- The answer to the unit's own RESYNC (R608, R609): earlier frames count as settled. -/
def takeAnswer (s : State) (x : Session) (f : Frame) : State :=
  let s := modSess s x.id fun y =>
    { resyncRx s y f y.gen with
      unacked := [], peerAck := f.hdr.cumAck, resyncAt := some (now s), ackedAt := now s
      ackDue := some (now s + ackDelay s x.port) }
  let s := { s with net := { s.net with retention := s.net.retention.map fun e =>
    if e.sess = x.id ∧ e.reply.isSome then { e with acked := true } else e } }
  flush (modPort s x.port fun p => { p with resyncs := satInc 65535 p.resyncs }) x.id

/-- A frame on a session that waits for the answer to its RESYNC (R609). -/
def rxResyncing (s : State) (x : Session) (f : Frame) (g : Nat) : State :=
  match parseResync f.body with
  | some (n, 1, _) =>
    if isResync f && g == x.gen && n == g then takeAnswer s x f
    else modPort s x.port fun p => { p with resyncDrop := satInc 65535 p.resyncDrop }
  | _ => modPort s x.port fun p => { p with resyncDrop := satInc 65535 p.resyncDrop }

/-- A verification failure (R555). -/
def aeadFailed (s : State) (p : Nat) : State := modPort s p fun q => { q with aeadFail := satInc 0xFFFFFFFF q.aeadFail }

/-- A frame of the session has passed R555 (R603). -/
def noteHeard (s : State) (x : Session) : State := modSess s x.id fun y => { y with lastRx := now s }

/-- A RESYNC on an established session (R607): any that does not meet its conditions is an ordinary frame, which fails R555
under a generation that its sequence does not select. -/
def rxResync (s : State) (x : Session) (f : Frame) (g : Nat) : State :=
  let ordinary := if rxGen x f.hdr.seq = some g then rxOrdinary (noteHeard s x) x f g else aeadFailed s x.port
  match parseResync f.body with
  | some (n, 0, cause) =>
    if n == g && decide (x.gen ≤ g) && firstUnder x g && x.state != .closing then hostResync s x f g cause else ordinary
  | _ => ordinary

end Sys2Proof.Machine
end

