-- ==== Sys2Proof/Machine/Handshake.lean ====
section
/-! DEFINITION. The handshake (R563 to R573, R732) and BEACON (R578, R579). -/

namespace Sys2Proof.Machine

/-! ### What the module sends outside a session -/

/-- Header of a clear frame: type, flags and session ID. -/
def clearHdr (s : State) (typ flags sess plen : Nat) : FrameHdr :=
  { typ := typ, flags := flags, sess := sess, plen := plen, stamp := s.mer.t }

/-- Send a clear frame. -/
def sendClear (s : State) (p : Nat) (path : Path) (typ flags sess : Nat) (body : List Byte) : State :=
  transmit s p (.frame p path (ipTx s p path false) (clearHdr s typ flags sess body.length) body [])

/-- A HELLO discarded, refused or retried is counted (Table 14.17). -/
def noteHelloDrop (s : State) (p : Nat) : State := modPort s p fun q => { q with helloDrop := satInc 65535 q.helloDrop }

/-- REFUSE (Table 14.9). -/
def refuseHello (s : State) (f : Frame) (status reason : Nat) : State :=
  noteHelloDrop (sendClear s f.port f.path 0xD 0 0
    (leBytes 2 status ++ leBytes 1 reason ++ zeros 5 ++ sha3_256 f.body)) f.port

/-! ### Cookies (R567) -/

/-- Epoch of a cookie: T[63:32]. -/
def cookieEpochOf (s : State) : Nat := s.mer.t / 2 ^ 32

/-- Cookie of a source under a key and an epoch: the address as it stands in the packet (log 108). -/
def cookieFor (key : List Byte) (epoch : Nat) (f : Frame) : List Byte :=
  kmac256 key (beBytes (if f.path.v6 then 16 else 4) f.path.ip ++ leBytes 2 f.path.udp ++ leBytes 1 f.port
    ++ leBytes 4 epoch) 16 (ascii "WX-WSP-COOKIE")

/-- K_cookie of the present epoch, and of the one before. -/
def cookieOk (s : State) (f : Frame) : Bool :=
  let c := slice f.body 16 16
  c == cookieFor s.net.cookieKey s.net.cookieEpoch f || c == cookieFor s.net.cookieOld (s.net.cookieEpoch - 1) f

/-- RETRY (Table 14.9). -/
def retryHello (s : State) (f : Frame) : State :=
  noteHelloDrop (sendClear s f.port f.path 0xC 0 0
    (cookieFor s.net.cookieKey s.net.cookieEpoch f ++ sha3_256 f.body)) f.port

/-- COOKIE_EPOCH_CHANGE (R567): K_cookie is drawn anew when the epoch changes. -/
def execCookieEpochChange (s : State) : Host.Outcome State Fault Refusal :=
  .next <|
    let e := cookieEpochOf s
    if e = s.net.cookieEpoch then s
    else match sysDraw s .ports 32 with
      | some (k, t) => { t with net := { t.net with
          cookieOld := if e = s.net.cookieEpoch + 1 then s.net.cookieKey else k
          cookieKey := k, cookieEpoch := e } }
      | none => sysWait s .ports

/-! ### HELLO (Table 14.11) -/

/-- Half-open entries of the unit. -/
def halfOpens (s : State) : List Session := s.net.sessions.filter (·.state == .halfOpen)

/-- The system DRBG is instantiated (R533). -/
def sysSeeded (s : State) : Bool := (vget s.rng.drbg s.variant.sysUnit {}).state != .unseeded

/-- Layout, reserved fields and `alg` of a HELLO (Table 14.7, R732). -/
def helloLayout (s : State) (f : Frame) : Bool :=
  let b := f.body
  let alg := fieldAt b 6 1
  b.length == 1320 && decide (fieldAt b 0 2 = 1 ∧ fieldAt b 2 2 ≤ 1 ∧ fieldAt b 4 2 < 4096)
    && rsvdOk b 7 1 && rsvdOk b 129 7
    && (alg == 0x28 || alg == (if f.port = 4 ∧ s.lcf.holdWater = true then 0x11 else 0x10))

/-- A session ID that no session and no quarantine holds, from a draw (R569). -/
def pickId (s : State) (v : Nat) : Nat :=
  let used := 0 :: (s.net.sessions.map (·.id) ++ s.net.quarantine.map (·.1))
  (((List.range (used.length + 1)).map fun k => (v + k) % 2 ^ 32).find? fun i => !used.contains i).getD v

/-- The certificate chain that ACCEPT carries (R441, R732). -/
def acceptChain (s : State) : List Byte := if s.lcf.holdWater then serviceChain s else moduleChain s

/-- Seed of the key that signs ACCEPT (R564, R732). -/
def acceptSeed (s : State) : List Byte := if s.lcf.holdWater then serviceSeed s else (ownKeys s).attest

/-- What an ACCEPT gives: its message, TH, and S₀ (R564, R565); and whether its signature verifies. -/
structure Accepted where
  message : List Byte
  th : List Byte
  s0 : List Byte
  checks : Bool

/-- The ACCEPT (Table 14.8) to a HELLO; `rand` is the draw behind the module's scalar, its encapsulation and its hedged
signature. -/
def acceptMessage (s : State) (f : Frame) (id : Nat) (rand : List Byte) : Accepted :=
  let h := f.body
  let chain := acceptChain s
  let omitted := fieldAt h 2 2 == 1 && slice h 32 32 == sha3_256 chain
  let c := if omitted then [] else chain
  let scalar := rand.take 32
  let kem := kemEncaps 0x21 (slice h 136 1184) (slice rand 32 32) 1088
  let body := leBytes 2 1 ++ leBytes 2 (b2n omitted) ++ leBytes 4 id ++ leBytes 8 s.mer.t ++ leBytes 4 s.mer.unc ++ zeros 4
    ++ sha3_256 h ++ p256Share scalar ++ zeros 7 ++ kem.1 ++ leBytes 4 c.length ++ zeros 4 ++ c
  let ctx := ascii "WX-WSP-ACCEPT"
  let sig := mldsaSigned 0x28 (acceptSeed s) ctx (sha3_256 (h ++ body)) (slice rand 64 32) 2420
  let th := sha3_256 (h ++ body ++ sig)
  { message := body ++ sig, th := th, s0 := firstSecret kem.2 (p256Secret scalar (slice h 64 65)) th
    checks := mldsaVerifies 0x28 (derivePublic 0x28 (acceptSeed s) 1312) ctx (sha3_256 (h ++ body)) sig }

/-- Data bytes of one ACCEPT fragment. -/
def acceptCap (s : State) (p : Nat) (path : Path) : Nat :=
  mtuOf s p - (if path.v6 then 40 else 20) - 8 - 40

/-- Send an ACCEPT in its fragments, under the session ID (R556). -/
def sendAccept (s : State) (x : Session) : State :=
  let s := (fragments x.id (acceptCap s x.port x.path) x.accept).foldl (fun s b => sendClear s x.port x.path 2 1 x.id b) s
  modPort s x.port fun p => { p with helloOk := satInc 65535 p.helloOk }

/-- ACCEPT creates a half-open entry (R568), once the system DRBG serves its draws (R529, log 72). Where verify-after-sign
applies, one whose signature does not verify is not sent (R564). -/
def acceptHello (s : State) (f : Frame) : State :=
  match sysDraw s .ports 100 with
  | none => sysWait { s with net := { s.net with hellos := s.net.hellos ++ [f] } } .ports
  | some (b, t) =>
    let id := pickId s (leNat (b.take 4))
    let rand := b.drop 4
    let a := acceptMessage s f id rand
    let x : Session :=
      { id := id, port := f.port, mgmt := f.port == 4, home := fieldAt f.body 4 2, cred := nameOfId (fieldAt f.body 8 8)
        alg := fieldAt f.body 6 1, helloDigest := sha3_256 f.body
        accept := a.message, th := a.th, sg := a.s0, keys := [(0, directionKeys a.s0)], path := f.path, opened := now s, rxSwitch := some 0, txSwitch := some 0
        advWin := rxWindow s f.port, lastRx := now s, lastTx := now s, genStart := now s }
    if vasOn s && !a.checks then noteHelloDrop t f.port
    else sendAccept { t with net := { t.net with sessions := t.net.sessions ++ [x] } } x

/-- Row 8: the encapsulation key passes the modulus check of FIPS 203, and the share is a point of P-256. -/
def sharesOk (f : Frame) : Bool := kemCoeffsOk (slice f.body 136 1152) && onCurve 0 (slice f.body 64 65)

/-- HELLO (Table 14.11): none is served on a unit address of a host port, or while `service` is 0 (R547). -/
def takeHello (s : State) (f : Frame) : State :=
  let half := halfOpens s
  let cookie := hptFld s f.port 0x004 5 2
  if portServes s f.port = false ∨ (f.port ≠ 4 ∧ inService s = false) ∨ sysSeeded s = false
      ∨ (f.port ≠ 4 ∧ (toService s f && serviceOn s f.port) = false) then noteHelloDrop s f.port
  else if s.bin.lock || s.bin.lockNew || s.rng.alarm then refuseHello s f St.tamperLock 8
  else match half.find? fun x => x.helloDigest == sha3_256 f.body && x.port == f.port && x.path == f.path with
    | some x => sendAccept s x
    | none =>
      if helloLayout s f = false then refuseHello s f St.badFormat 1
      else if (2 ≤ cookie ∨ (cookie = 1 ∧ 8192 < half.length)) ∧ cookieOk s f = false then retryHello s f
      else if s.variant.sessions ≤ (s.net.sessions.filter (·.port == f.port)).length then refuseHello s f St.notAuthorised 3
      else if 16384 ≤ half.length then refuseHello s f St.notAuthorised 4
      else if sharesOk f = false then refuseHello s f St.badFormat 2
      else acceptHello s f

/-! ### CONFIRM (Table 14.12, R732) -/

/-- Length of a signature under an `alg`. -/
def sigLen (alg : Nat) : Nat := if alg = 0x10 then 64 else if alg = 0x11 then 96 else 2420

/-- Length of an officer's public key under an `alg` (R732). -/
def officerKeyLen (alg : Nat) : Nat := if alg = 0x11 then 97 else 1312

/-- The session is a Hold-Water session (R732). -/
def hwSession (s : State) (x : Session) : Bool := x.port == 4 && s.lcf.holdWater

/-- Row 1: layout and signature length. -/
def confirmLayout (s : State) (x : Session) (m : List Byte) : Bool :=
  decide (m.length = 16 + sigLen x.alg + (if hwSession s x then officerKeyLen x.alg else 0) ∧
    fieldAt m 0 2 = 1 ∧ fieldAt m 8 2 = sigLen x.alg) && rsvdOk m 2 6 && rsvdOk m 10 6

/-- Row 2: the credential key. -/
def credentialOk (s : State) (x : Session) : Bool :=
  match (cfgV s).keys.find? fun k => k.name == x.cred with
  | some k =>
    (k.name.dom == 0) == (x.port == 4) && k.attrs.alg == x.alg && bitOf k.attrs.usage uVerify
      && bitOf k.attrs.engines (if x.alg = 0x10 then eBne else eLte) && windowOk s k.attrs
  | none => false

/-- The officer copy is usable: its digest is the one that Binnacle holds, and it has an approver (R422, R732). -/
def copyUsable (s : State) : Bool :=
  match s.qrm.copy, s.bin.officerDigest with
  | some (l, p), some d => sha3_256 (officerCopyBytes l p) == d && l.any fun o => bitOf o.roles 0
  | _, _ => false

/-- The officer's key of a Hold-Water CONFIRM (R732). -/
def officerOk (s : State) (x : Session) (m : List Byte) : Bool :=
  match s.qrm.copy with
  | some (l, _) =>
    copyUsable s && decide (keyIdOf x.cred < 32) && l.any fun o =>
      o.slot == keyIdOf x.cred && o.pkDigest == sha3_256 (m.drop (16 + sigLen x.alg))
  | none => false

/-- The client's signature of TH verifies under a public key (R564; over P-384, log 108). -/
def clientSigOk (alg : Nat) (pk th sig : List Byte) : Bool :=
  let ctx := ascii "WX-WSP-CLIENT"
  if alg = 0x10 then ecdsaVerifies 0 pk (sha256 (ctx ++ th)) sig
  else if alg = 0x11 then ecdsaVerifies 1 pk (sha384 (ctx ++ th)) sig
  else mldsaVerifies 0x28 pk ctx th sig

/-- Row 3: the signature verifies over TH under the credential key, or the officer's key that the CONFIRM carries. -/
def confirmSigOk (s : State) (x : Session) (m : List Byte) : Bool :=
  let sig := slice m 16 (sigLen x.alg)
  if hwSession s x then clientSigOk x.alg (m.drop (16 + sigLen x.alg)) x.th sig
  else ((cfgV s).keys.find? fun k => k.name == x.cred).any fun k => clientSigOk x.alg (publicPart k) x.th sig

/-- The first check of Table 14.12 that fails: its status and reason. -/
def confirmCheck (s : State) (x : Session) (m : List Byte) : Option (Nat × Nat) :=
  if confirmLayout s x m = false then some (St.badFormat, 1)
  else if (if hwSession s x then officerOk s x m else credentialOk s x) = false ∨ confirmSigOk s x m = false then some (St.notAuthorised, 5)
  else if x.port = 4 then none
  else
    let home := alGet (cfgV s).insts x.home
    if (home.map (·.dom)) ≠ some x.cred.dom ∨ (insRt s x.home).map (·.state) ≠ some .active then some (St.notAuthorised, 6)
    else if ((home.map (·.share.sessions)).getD 0) ≤ sessionsOf s x.home then some (St.notAuthorised, 7) else none

/-- CONFIRM fails: CLOSE, and the ID goes into quarantine (R570). -/
def failConfirm (s : State) (id status reason : Nat) : State :=
  endSession (sendFrame s id 8 0 (closeBody status reason)) id

/-- A whole CONFIRM of `n` frames (R570 to R572). -/
def confirmWhole (s : State) (x : Session) (f : Frame) (m : List Byte) (n : Nat) : State :=
  match confirmCheck s x m with
  | some (st, r) => failConfirm s x.id st r
  | none =>
    let s := modSess s x.id fun y =>
      { y with
        path := (y.confirmPath.map (·.2)).getD f.path, pathSeq := some ((y.confirmPath.map (·.1)).getD f.hdr.seq)
        confirmPath := none
        state := .established, dom := if x.port = 4 then 0 else x.cred.dom, rxCum := n, rxSet := [], genRx := n
        confirmParts := [], accept := [], lastRx := now s, ackedAt := now s }
    let s := takeAck s x.id f.hdr
    match findSess s x.id with
    | some y => sendAnchor s x.id 0 y
    | none => s

/-- The path of the CONFIRM fragment with the highest sequence so far (R558). -/
def confirmFrom (x : Session) (f : Frame) : Option (Nat × Path) :=
  match x.confirmPath with
  | some (q, p) => if q ≤ f.hdr.seq then some (f.hdr.seq, f.path) else some (q, p)
  | none => some (f.hdr.seq, f.path)

/-- A verified CONFIRM frame on a half-open session (R556, R570). -/
def takeConfirm (s : State) (x : Session) (f : Frame) : State :=
  let s := modSess s x.id fun y => { y with confirmPath := confirmFrom y f }
  if bitOf f.hdr.flags 0 = false then
    if f.hdr.seq = 0 then confirmWhole s x f f.body 1 else failConfirm s x.id St.badFormat 1
  else
    let b := f.body
    let count := fieldAt b 5 1
    let idx := fieldAt b 4 1
    if b.length < 8 ∨ fieldAt b 0 4 ≠ 0 ∨ count = 0 ∨ 4 < count ∨ count ≤ idx ∨ fieldAt b 6 2 ≠ 0 ∨ f.hdr.seq ≠ idx then
      failConfirm s x.id St.badFormat 1
    else
      let parts := alSet x.confirmParts idx (b.drop 8)
      if parts.length < count then modSess s x.id fun y => { y with confirmParts := parts }
      else confirmWhole s x f ((List.range count).flatMap fun i => (alGet parts i).getD []) count

/-! ### BEACON (R578, R579) -/

/-- Status record (Table 14.15). -/
def statusRecord (s : State) (nonce : List Byte) : List Byte :=
  let bits := b2n s.bin.lock + 2 * b2n (evidenceFull s) + 4 * b2n (lcState s == .scrapped) + 8 * b2n (inService s)
  leBytes 4 0x4E425857 ++ leBytes 2 1 ++ leBytes 1 (match s.variant with | .wx7480 => 0x80 | .wx7440 => 0x40)
    ++ leBytes 1 (if s.suffixE then 0x45 else 0x43) ++ leBytes 16 s.serial.toNat ++ leBytes 1 (lcState s).code
    ++ leBytes 1 s.lcf.stage ++ leBytes 2 s.lcf.failure ++ leBytes 1 s.prl.state.code ++ leBytes 1 (servoCode s.mer.state)
    ++ leBytes 1 s.pwr.effective ++ leBytes 1 bits ++ leBytes 8 s.mer.t ++ leBytes 4 s.mer.unc ++ zeros 4 ++ nonce
    ++ zeros 16

/-- The answer carries a signature. -/
def beaconSigned (s : State) (f : Frame) : Bool :=
  bitOf f.hdr.flags 4 && decide (2500 ≤ f.body.length) && decide (8 ≤ s.lcf.stage) && s.ksc.loaded && s.ksc.rootOk && sysSeeded s
    && decide ((if f.path.v6 then 2588 else 2568) ≤ mtuOf s f.port)

/-- BEACON_R. A unit address answers whatever `service` and the fence hold (R547). -/
def beaconAnswer (s : State) (f : Frame) : State :=
  let rec_ := statusRecord s (slice f.body 0 16)
  let draw := if beaconSigned s f then sysDraw s .ports 32 else none
  let signed := draw.isSome
  let (sig, s) := match draw with
    | some (r, s) => (mldsaSigned 0x28 (ownKeys s).attest (ascii "WX-BEACON") rec_ r 2420, s)
    | none => ([], s)
  let body := rec_ ++ sig
  let o := Out.frame f.port f.path (ipTx s f.port f.path false)
    (clearHdr s 0xB (if signed then 0 else 8) 0 body.length) body []
  let s := if toService s f = false then (if f.port < 4 then drillTx s f.port none o else emit s o) else transmit s f.port o
  modPort s f.port fun p => { p with beaconOk := satInc 65535 p.beaconOk }

/-- BEACON_Q (R578, R579, R725). -/
def takeBeacon (s : State) (f : Frame) : State :=
  if now s < s.pwr.pwrGoodAt + 400 * tickMs ∨ f.body.length < 16 then s
  else
    let sec := now s / tickS
    let n := if (portOf s f.port).beaconSec = sec then (portOf s f.port).beaconCount else 0
    if 10000 ≤ n then modPort s f.port fun p => { p with beaconDrop := satInc 65535 p.beaconDrop }
    else beaconAnswer (modPort s f.port fun p => { p with beaconSec := sec, beaconCount := n + 1 }) f

end Sys2Proof.Machine
end

