-- ==== Sys2Proof/Machine/HostRx.lean ====
section
/-! DEFINITION. Frames as the ports receive them: Drill (R775), Table 14.1, and the commands that bring a frame; ARP,
neighbour discovery and echo (R545). -/

namespace Sys2Proof.Machine

/-! ### Receiving -/

/-- The unit takes session frames here: on the management port, or on a service address while `en` and `service` are 1 (R547,
R583). -/
def sessionsHere (s : State) (x : Session) (f : Frame) : Bool :=
  portServes s f.port && servesSess s x && (f.port == 4 || toService s f)

/-- A protected frame that passed rows 1 to 5 (rows 6 and 7, then chapter 15). -/
def rxProtected (s : State) (f : Frame) : State :=
  match s.net.sessions.find? fun x => x.id == f.hdr.sess && x.port == f.port with
  | none => modPort s f.port fun p => { p with dropWsp := satInc 65535 p.dropWsp }
  | some x => match verifies x f with
    | none => aeadFailed s f.port
    | some (g, f) =>
      if sessionsHere s x f = false then s
      else if x.state = .resyncing then rxResyncing s x f g
      else if x.state = .halfOpen then (if f.hdr.typ = 3 then takeConfirm (noteHeard s x) x f else noteHeard s x)
      else if isResync f then rxResync s x f g
      else rxOrdinary (noteHeard s x) x f g

/-- A frame that passed rows 1 to 5 of Table 14.1: BEACON is answered on a unit address, and on a service address while
`service` is 1 (R547). -/
def rxAccepted (s : State) (f : Frame) : State :=
  if f.hdr.typ = 10 then (if isUnit s f.port f.path.v6 f.link.dst || serviceOn s f.port then takeBeacon s f else s)
  else if f.hdr.typ = 1 then takeHello s f
  else rxProtected s f

/-- A frame at a port (Table 14.1). -/
def rxFrame (s : State) (f : Frame) : State :=
  if s.pwr.mainPower = false ∨ portPresent s f.port = false then s
  else if linkOk s f = false then modPort s f.port fun p => { p with dropLink := satInc 65535 p.dropLink }
  else if headerOk f = false then modPort s f.port fun p => { p with dropWsp := satInc 65535 p.dropWsp }
  else rxAccepted s f

/-- Released frames of the receive direction. -/
def hostRelease (s : State) (l : List DrillFrame) : State :=
  l.foldl (fun s h => match h with | .host f => rxFrame s f | _ => s) s

/-- The session that Drill's filter sees: that of a protected frame. -/
def drillSess (f : Frame) : Option Nat := if protectedType f.hdr.typ then some f.hdr.sess else none

/-- The port's timestamps of a received frame: at the end of its start-of-frame delimiter, and at its last bit (R580). -/
def rxStamps (s : State) (f : Frame) : Nat × Nat :=
  let last := 256 * s.mer.t + f.frac % 256
  (last - f.air, last)

/-- A frame with its last-bit timestamp. -/
def stamped (s : State) (f : Frame) : Frame := { f with stamp := (rxStamps s f).2 }

/-- A stamped frame goes on: on a host port Drill acts on those sent to `udp_port` (R775, R776). -/
def hostPass (s : State) (f : Frame) : State :=
  if s.pwr.mainPower = false ∨ 4 ≤ f.port ∨ f.link.udpPort ≠ hptFld s f.port 0x00C 0 16 then rxFrame s f
  else
    let rx := drlFld s f.port 0x010 1 1 == 0
    let after := fun s : State => if rx then let (l, s) := passedOne s f.port; hostRelease s l else s
    let (a, s) := drillDecide s f.port 0 (drillSess f) (8 * (40 + f.body.length + f.tag.length))
    match a with
    | .pass => after (rxFrame s f)
    | .drop => s
    | .corrupt b => after (rxFrame s (flipFrame f b))
    | .duplicate => after (rxFrame (rxFrame s f) f)
    | .hold => holdFrame s f.port (.host f)

/-- A frame arrives, and the port stamps it. -/
def hostIn (s : State) (f : Frame) : State := hostPass s (stamped s f)

/-- The command of a frame type takes a frame of that type alone. -/
def typedFrame (t : Nat) (f : Frame) (s : State) : Host.Outcome State Fault Refusal :=
  .next (if f.hdr.typ = t then hostIn s f else s)

/-! ### Commands -/

/-- HELLO (Tables 14.7 and 14.11): its body ends in the client's key shares (log 116). -/
def execHello (f : Frame) (shares : List Byte) (s : State) : Host.Outcome State Fault Refusal :=
  typedFrame 1 (f.andThen shares) s

/-- CONFIRM (Tables 14.9 and 14.12): its body ends in the client's signature. -/
def execConfirm (f : Frame) (sig : List Byte) (s : State) : Host.Outcome State Fault Refusal :=
  typedFrame 3 (f.andThen sig) s

/-- DATA (R587). -/
def execDataFrame (f : Frame) (s : State) : Host.Outcome State Fault Refusal := typedFrame 4 f s

/-- ACK (R585). -/
def execAckFrame (f : Frame) (s : State) : Host.Outcome State Fault Refusal := typedFrame 5 f s

/-- REKEY_ACK (R575). -/
def execRekeyAck (f : Frame) (s : State) : Host.Outcome State Fault Refusal := typedFrame 7 f s

/-- CLOSE (R604). -/
def execClose (f : Frame) (s : State) : Host.Outcome State Fault Refusal := typedFrame 8 f s

/-- RESYNC (R607). -/
def execResync (f : Frame) (s : State) : Host.Outcome State Fault Refusal := typedFrame 9 f s

/-- BEACON_Q (R578). -/
def execBeaconQ (f : Frame) (s : State) : Host.Outcome State Fault Refusal := typedFrame 10 f s

/-- The frame passes rows 1 to 5 of Table 14.1. -/
def handled (s : State) (f : Frame) : Bool := portPresent s f.port && linkOk s f && headerOk f

/-- DISCARDED_FRAME (R549): a frame or datagram that Table 14.1 discards. -/
def execDiscardedFrame (f : Frame) (s : State) : Host.Outcome State Fault Refusal :=
  .next (if handled s f then s else hostIn s f)

/-! ### ARP, neighbour discovery, echo (R545, R547) -/

/-- The port answers on its unit addresses from 400 ms after PWR_GOOD (R725). -/
def unitAnswers (s : State) : Bool := s.pwr.mainPower && decide (s.pwr.pwrGoodAt + 400 * tickMs ≤ now s)

/-- An IPv4 or IPv6 service address of the port. -/
def isService4 (s : State) (p addr : Nat) : Bool := isService s p false addr
def isService6 (s : State) (p addr : Nat) : Bool := isService s p true addr

/-- An IPv4 or IPv6 unit address of the port, from the moment that R725 gives. -/
def isUnit4 (s : State) (p addr : Nat) : Bool := unitAnswers s && isUnit s p false addr
def isUnit6 (s : State) (p addr : Nat) : Bool := unitAnswers s && isUnit s p true addr

/-- Answer on a unit address at once, on a service address through the transmit gate; only a request that passes R544. -/
def answerOn (s : State) (l : LinkAt) (unit service : Bool) (o : Out) : State :=
  if (portPresent s l.port && s.pwr.mainPower && macVlanOk s l.port l.mac l.vlan) = false then s
  else if unit then emit s o else if service && serviceOn s l.port && txOpen s l.port then emit s o else s

/-- The path of an answer on the VLAN that brought the request. -/
def answerPath (l : LinkAt) : Path := { vlan := l.vlan }

/-- ARP_REQUEST (R545). -/
def execArpRequest (l : LinkAt) (addr : Nat) (s : State) : Host.Outcome State Fault Refusal :=
  .next (answerOn s l (isUnit4 s l.port addr) (isService4 s l.port addr) (.arp l.port addr l.vlan))

/-- NEIGHBOUR_SOLICITATION (R545). -/
def execNeighbourSolicitation (l : LinkAt) (addr : Nat) (s : State) : Host.Outcome State Fault Refusal :=
  .next (answerOn s l (isUnit6 s l.port addr) (isService6 s l.port addr)
    (.nd l.port addr l.vlan (ipTx s l.port (answerPath l) false)))

/-- Host ports answer BEACON alone: in Hold-Water (R731), and until the system DRBG is instantiated (R533). -/
def beaconOnly (s : State) (p : Nat) : Bool := decide (p < 4) && (s.lcf.holdWater || !sysSeeded s)

/-- ICMP_ECHO (R545): answered while `echo` is 1; not in Hold-Water (R731), and on a host port not before the system DRBG is
instantiated (R533). -/
def execIcmpEcho (l : LinkAt) (addr : Nat) (v6 : Bool) (s : State) : Host.Outcome State Fault Refusal :=
  .next <|
    if hptFld s l.port 0x004 4 1 = 0 ∨ beaconOnly s l.port = true then s
    else answerOn s l (if v6 then isUnit6 s l.port addr else isUnit4 s l.port addr)
      (if v6 then isService6 s l.port addr else isService4 s l.port addr)
      (.echo l.port addr l.vlan (ipTx s l.port (answerPath l) false))

/-- HOST_PORT_LINK_CHANGE (R797): `link_up` follows the link. -/
def execHostPortLinkChange (port : Nat) (up : Bool) (s : State) : Host.Outcome State Fault Refusal :=
  .next <|
    if portPresent s port = false ∨ s.pwr.mainPower = false then s
    else modPort s port fun p => { p with linkUp := up }

/-- Announcements of a port's service addresses: a gratuitous ARP, an unsolicited neighbour advertisement (R547). -/
def announcements (s : State) (p : Nat) : List Out :=
  (if hasService s p false && serviceAddr s p false != 0 then [.gratuitousArp p (serviceAddr s p false)] else [])
    ++ if hasService s p true && serviceAddr s p true != 0 then [.advertisement p (serviceAddr s p true) (ipTx s p {} false)] else []

/-- ADDRESS_ANNOUNCE (R547): the next announcement of the service addresses that is due. -/
def execAddressAnnounce (port : Nat) (s : State) : Host.Outcome State Fault Refusal :=
  .next <| match (portOf s port).announce with
  | [] => s
  | t :: rest =>
    if now s < t then s
    else
      let s := modPort s port fun p => { p with announce := rest }
      if txOpen s port then (announcements s port).foldl emit s else s

end Sys2Proof.Machine
end

