-- ==== Sys2Proof/Machine/LogOps.lean ====
section
/-! DEFINITION. The Log, the trouble counters and Drill as commands (chapter 20, R767 to R780). -/

namespace Sys2Proof.Machine

/-! ### The Log -/

/-- Records in the NAND area (R768). -/
def nandSize : Nat := 16777216

/-- LOG_RECORD_DRAIN (R768): the oldest undrained record is copied; a full area loses its oldest record. -/
def execLogRecordDrain (s : State) : Host.Outcome State Fault Refusal :=
  .next <|
    if s.pwr.mainPower = true ∧ blockEn s 17 0 = true ∧ 0 < s.log.undrained then
      match alGet s.log.ring ((s.log.wptr + ringSize - s.log.undrained) % ringSize) with
      | some r =>
        { s with log := { s.log with
          nand := alSet s.log.nand s.log.head r
          head := (s.log.head + 1) % nandSize
          wrapped := s.log.wrapped || (alGet s.log.nand s.log.head).isSome
          undrained := s.log.undrained - 1 } }
      | none => s
    else s

/-- `freeze` is written 1 (R770, R772): it does not restart a freeze. -/
def freezeLog (s : State) : State :=
  match s.log.frozen with
  | some _ => s
  | none => setBit { s with log := { s.log with frozen := some (now s) } } 0x00110004 1

/-- `freeze` is written 0 (R771). -/
def thawLog (s : State) : State := if s.log.frozen.isSome then logThaw s else s

/-- LOG_FREEZE (R770). -/
def execLogFreeze (s : State) : Host.Outcome State Fault Refusal := .next (freezeLog s)

/-- LOG_THAW (R771). -/
def execLogThaw (s : State) : Host.Outcome State Fault Refusal := .next (thawLog s)

/-- FREEZE_EXPIRY (R772): the module thaws by itself after 10 s. -/
def execFreezeExpiry (s : State) : Host.Outcome State Fault Refusal :=
  .next <| match s.log.frozen with
  | some t => if t + 10 * tickS ≤ now s then setBit (logThaw s) 0x00110008 3 else s
  | none => s

/-- OPTIME_SAVE (R767). -/
def execOptimeSave (s : State) : Host.Outcome State Fault Refusal :=
  .next <|
    if s.pwr.mainPower = true ∧ s.log.savedOptime + 60 ≤ s.log.optime then
      { s with log := { s.log with savedOptime := s.log.optime } }
    else s

/-! ### Trouble counters -/

/-- A write of zero to `TRB_DATA` (R774). -/
def clearTrouble (s : State) : State :=
  let cause := fld s 0x00110800 16 6
  { s with log :=
    if rbit s 0x00110800 12 then { s.log with trbMod := alDel s.log.trbMod cause }
    else { s.log with trbInst := alDel s.log.trbInst (fld s 0x00110800 0 12, cause) } }

/-- TRB_CLEAR (R774). -/
def execTrbClear (s : State) : Host.Outcome State Fault Refusal := .next (clearTrouble s)

/-! ### Drill -/

/-- Frames that an injector releases go their way, in their order. -/
def releaseFrames (s : State) (l : List DrillFrame) : State :=
  l.foldl (fun s f => match f with
    | .host f => rxFrame s f
    | .plp p m => plpDeliver s p m
    | .send o => emit s o) s

/-- An injector stops selecting and releases what it holds (R780). -/
def stopInjector (s : State) (i : Nat) : State :=
  let (l, s) := takeHeld (disarm s i) i
  releaseFrames s l

/-- `arm` is written 1 (R777, R778): the LFSR is seeded from the system DRBG, for which the write waits. -/
def armInjector (s : State) (i : Nat) : State :=
  if 5 ≤ i ∨ blockEn s 20 0 = false ∨ (injOf s i).armed = true then s
  else if lcState s = .deployed ∧ (injOf s i).permit.isNone = true then setBit s 0x00140008 2
  else match sysDraw s .unit 4 with
    | some (b, s) =>
      modInj { s with regs := alSet s.regs (drlAddr i 0x010) (insertBits (drlReg s i 0x010) 0 1 1) } i fun x =>
        { x with armed := true, lfsr := BitVec.ofNat 32 (leNat b) }
    | none => sysWait s .unit

/-- The variant has the injector (R5): one for each host port, and 4 for the pair link. -/
def injPresent (s : State) (i : Nat) : Bool := i == 4 || decide (i < s.variant.hostPorts)

/-- DRILL_ARM (R778); the WX-7440 has no injectors 2 and 3 (R5). -/
def execDrillArm (inj : Nat) (s : State) : Host.Outcome State Fault Refusal :=
  .next (if injPresent s inj then armInjector s inj else s)

/-- REORDER_HOLD_TIMEOUT (R776): frames held for 100 µs, or due since a permit ended, leave. -/
def execReorderHoldTimeout (inj : Nat) (s : State) : Host.Outcome State Fault Refusal :=
  .next <|
    let due := fun h : HeldFrame => decide (h.since + 1600 ≤ now s) || h.left == 0
    let l := ((injOf s inj).held.filter due).map (·.frame)
    if l.isEmpty then s
    else releaseFrames (modInj s inj fun x => { x with held := x.held.filter fun h => !due h }) l

/-- PERMIT_EXPIRY (R779, R780): permits end at their T. -/
def execPermitExpiry (s : State) : Host.Outcome State Fault Refusal :=
  .next <|
    let ended := (List.range 5).filter fun i => (injOf s i).permit.any fun t => decide (t ≤ s.mer.t)
    let s := ended.foldl (fun s i => modInj s i fun x => { x with permit := none }) s
    ended.foldl stopInjector s

/-- DRILL_LOG_MS (R780): one record for the injections of a millisecond that has ended. -/
def execDrillLogMs (inj : Nat) (s : State) : Host.Outcome State Fault Refusal :=
  .next (if inj < 5 then logInjections s inj else s)

end Sys2Proof.Machine
end

