-- ==== Sys2Proof/Machine/RngOps.lean ====
section
/-! DEFINITION. The random number block (chapter 13): source tests, seeds, the instances, the system data register, and
the waits of Table 13.3. -/

namespace Sys2Proof.Machine

/-- `RNG_CTRL` `en`. -/
def rngOn (s : State) : Bool := s.pwr.mainPower && blockEn s 10 0

/-- State of a source. -/
def srcOf (s : State) (n : Nat) : SrcState := vget s.rng.src n .off

/-- Change a source and its count of repeats. -/
def setSrc (s : State) (n : Nat) (st : SrcState) (repeats : Nat) : State :=
  { s with rng := { s.rng with src := vset s.rng.src n st, repeats := vset s.rng.repeats n repeats } }

/-- Code of a source state (Table 13.1). -/
def SrcState.code : SrcState → Nat
  | .off => 0 | .startTest => 1 | .healthy => 2 | .retest => 3 | .retired => 4

/-- All four sources are HEALTHY (R527). -/
def allHealthy (s : State) : Bool := s.rng.src.toList.all (· == .healthy)

/-- `en` is set (R525): every source starts its test. -/
def startSources (s : State) : State :=
  setWl { s with rng := { s.rng with
    src := s.rng.src.map fun x => if x = .off then .startTest else x } } 0x000A0004 0

/-- Failures of the two tests (Table 13.8). -/
def noteFails (s : State) (rct apt : Bool) : State :=
  { s with rng := { s.rng with
    rctFails := if rct then satInc 65535 s.rng.rctFails else s.rng.rctFails
    aptFails := if apt then satInc 65535 s.rng.aptFails else s.rng.aptFails } }

/-- A source is RETIRED: in service the entropy source fires (R537, Table 19.4). -/
def retireSource (s : State) (n : Nat) : State :=
  let s := setSrc s n .retired 3
  if 5 ≤ s.lcf.stage then alarmEvent { s with rng := { s.rng with alarm := true } } 22 n else s

/-- A start-up test of a source in RETEST ends (R535, R537). -/
def endRetest (s : State) (n : Nat) (ok : Bool) : State :=
  let s := { s with rng := { s.rng with retests := satInc 255 s.rng.retests } }
  let k := vget s.rng.repeats n 0 + 1
  if ok then setSrc s n .healthy 0 else if 3 ≤ k then retireSource s n else setSrc s n .retest k

/-- Longest run of equal samples. -/
def longestRun (l : List Bool) : Nat :=
  (l.foldl (fun (p : Nat × Nat × Bool) x =>
    let n := if x = p.2.2 then p.2.1 + 1 else 1
    (max p.1 n, n, x)) (0, 0, false)).1

/-- The repetition count test fails over consecutive samples: 41 of them in a row are identical (R524). -/
def rctBad (l : List Bool) : Bool := decide (41 ≤ longestRun l)

/-- The adaptive proportion test fails in a window: its first value occurs 793 times or more (R524). -/
def aptBad (window : List Bool) : Bool := match window with
  | [] => false
  | x :: _ => decide (793 ≤ (window.take 1024).count x)

/-- STARTUP_TEST_COMPLETE (R525, R535, R537): both tests ran over the source's 1,024 consecutive samples, given in two parts;
other numbers of samples are no start-up test. -/
def execStartupTestComplete (src : Nat) (early late : List Bool) (s : State) : Host.Outcome State Fault Refusal :=
  .next <|
    let l := early ++ late
    if rngOn s = false ∨ 4 ≤ src ∨ l.length ≠ 1024 then s
    else
      let ok := !rctBad l && !aptBad l
      match srcOf s src with
      | .startTest =>
        let s := noteFails s (rctBad l) (aptBad l)
        if ok then setSrc s src .healthy 0 else setSrc s src .retest 0
      | .retest => endRetest (noteFails s (rctBad l) (aptBad l)) src ok
      | _ => s

/-- HEALTH_TEST_FAILURE (R524, R536): a continuous test fails on the latest samples of a source; it enters RETEST and every
buffered seed is discarded. -/
def execHealthTestFailure (src : Nat) (samples : Samples) (s : State) : Host.Outcome State Fault Refusal :=
  .next <|
    let rct := rctBad (samples.before ++ samples.window)
    let apt := aptBad samples.window
    if rngOn s = true ∧ src < 4 ∧ srcOf s src = .healthy ∧ (rct || apt) = true then
      let s := setSrc (noteFails s rct apt) src .retest 0
      { s with rng := { s.rng with seedBuf := [] } }
    else s

/-- SEED_PRODUCED (R526, R527): SHA3-256 of 2,048 raw bits, the 512 samples of source 0 and then those of 1, 2 and 3. -/
def execSeedProduced (s : State) : Host.Outcome State Fault Refusal :=
  .next <|
    if rngOn s = true ∧ allHealthy s = true ∧ s.rng.seedBuf.length < 16 then
      let (raw, s) := draw s 256
      { s with rng := { s.rng with seedBuf := s.rng.seedBuf ++ [sha3_256 raw], seeds := (s.rng.seeds + 1) % 2 ^ 64 } }
    else s

/-- Instances in their order of instantiation (R532). -/
def drbgOrder (s : State) : List Nat := s.variant.sysUnit :: List.range s.variant.crews

/-- Next instance to be instantiated. -/
def nextDrbg (s : State) : Option Nat := (drbgOrder s).find? fun n => (vget s.rng.drbg n {}).state == .unseeded

/-- Every instance is instantiated: `seeded`. -/
def allSeeded (s : State) : Bool := (nextDrbg s).isNone

/-- K_cookie is drawn at start (R567). -/
def firstCookie (s : State) : State :=
  match sysDraw s .ports 32 with
  | some (k, t) => { t with net := { t.net with cookieKey := k, cookieOld := k, cookieEpoch := s.mer.t / 2 ^ 32 } }
  | none => s

/-- The handshakes that waited for the system DRBG go on (R566, log 72). -/
def resumeHellos (s : State) : State := s.net.hellos.foldl takeHello { s with net := { s.net with hellos := [] } }

/-- DRBG_INSTANTIATE (R528, R532): two seeds instantiate the next instance. -/
def execDrbgInstantiate (s : State) : Host.Outcome State Fault Refusal :=
  .next <| match nextDrbg s, s.rng.seedBuf with
  | some n, a :: b :: rest =>
    if rngOn s = true then
      let t := setDrbg { s with rng := { s.rng with seedBuf := rest } } n
        ((drbgOf s n).instantiate (leBytes 16 s.serial.toNat) n a b)
      if n = s.variant.sysUnit then firstCookie t else t
    else s
  | _, _ => s

/-- DRBG_RESEED (R529): due after 65,536 requests, with a seed in the buffer. -/
def execDrbgReseed (n : Nat) (s : State) : Host.Outcome State Fault Refusal :=
  .next <|
    if rngOn s = true ∧ n ≤ s.variant.sysUnit ∧ (drbgOf s n).state ≠ .unseeded ∧ 65536 ≤ (drbgOf s n).reqs then
      match reseedNow s n with
      | some t => if n = s.variant.sysUnit then resumeHellos t else t
      | none => s
    else s

/-- DATA_REGISTER_REFILL (R538). -/
def execDataRegisterRefill (s : State) : Host.Outcome State Fault Refusal :=
  .next <|
    if rngOn s = true ∧ rbit s 0x000A0004 1 = true ∧ s.rng.data = none then
      match sysDraw s .data 8 with
      | some (b, s) => { s with rng := { s.rng with data := some (BitVec.ofNat 64 (leNat b)) } }
      | none => sysWait s .data
    else s

/-- The data register is read at its low word: the word returned and the word latched (R539). -/
def readData (s : State) : BitVec 32 × BitVec 32 × State :=
  match s.rng.data with
  | some v => (v.setWidth 32, (v >>> 32).setWidth 32, { s with rng := { s.rng with data := none } })
  | none => (0, 0, setBit s 0x000A0008 5)

/-! ### Waiting consumers (Table 13.3) -/

/-- The head key instruction of a core that waits for a draw, if `p` picks it. -/
def timeOutKey (s : State) (c : CoreId) (p : PendK → Bool) : State :=
  match (s.core c).pendK with
  | k :: rest =>
    if k.creates && k.status == 0 && drawLate s k.asked && p k then
      s.setCore c { s.core c with pendK := { k with wait := .ready, status := St.rngUnavailable, handle := none } :: rest }
    else s
  | [] => s

/-- A cipher job that waits for its PIN fill completes `RNG_UNAVAILABLE` without starting. -/
def timeOutCipher (s : State) (e : Nat) : State :=
  let x := engineOf s .cipher e
  match nextJob s x with
  | some j =>
    if x.running.isNone && !x.recovering && needsRand j && drawLate s j.since && !jobBlocked s j &&
        !drbgReady s (engineCrew .cipher e) then
      finishSym (setEngine s .cipher e { x with queue := x.queue.filter fun i => i.num != j.num }) j St.rngUnavailable
    else s
  | none => s

end Sys2Proof.Machine
end

