-- ==== Sys2Proof/Machine/SessTimers.lean ====
section
/-! DEFINITION. The timers of a session (chapters 14 and 15), each its own command. They act on the sessions that this unit
serves: those of the management port, and those of a host port whose `service` bit is set. -/

namespace Sys2Proof.Machine

/-- Apply a change to a session that this unit serves. -/
def onServed (s : State) (id : Nat) (f : Session → State) : State :=
  match findSess s id with
  | some x => if servesSess s x then f x else s
  | none => s

/-- A time has come: `t` plus `d` ticks. -/
def due (s : State) (t d : Nat) : Bool := decide (t + d ≤ now s)

/-- REKEY_TRIGGER (R574): 2^47 frames, 3,000 s, or 1 ms after `rekey_req`; the anchor of g + 1 is mirrored first. -/
def execRekeyTrigger (sess : Nat) (s : State) : Host.Outcome State Fault Refusal :=
  .next <| onServed s sess fun x =>
    let asked := match x.rekeyReqAt with
      | some t => due s t tickMs
      | none => false
    if x.state == .established && x.anchored && x.awaits.isNone && (decide (2 ^ 47 ≤ max x.genTx x.genRx) || due s x.genStart (3000 * tickS) || asked) then
      startRekey s x
    else s

/-- GENERATION_LIMIT (R577). -/
def execGenerationLimit (sess : Nat) (s : State) : Host.Outcome State Fault Refusal :=
  .next <| onServed s sess fun x =>
    if x.live && x.state != .closing && (decide (2 ^ 48 ≤ max x.genTx x.genRx) || due s x.genStart (3600 * tickS)) then
      closeSess s sess St.sessionExpired 0
    else s

/-- Both directions have acknowledged every frame below their switch sequences (R576). -/
def switched (x : Session) : Bool :=
  (match x.rxSwitch with | some w => decide (w ≤ x.rxCum) | none => false) &&
    (match x.txSwitch with | some w => x.unacked.all fun f => decide (w ≤ f.seq) | none => false)

/-- OLD_KEY_ERASE (R576): after acknowledgement, or 2 s after the REKEY. -/
def execOldKeyErase (sess : Nat) (s : State) : Host.Outcome State Fault Refusal :=
  .next <| onServed s sess fun x =>
    let late := match x.rekeyAt with
      | some t => due s t (2 * tickS)
      | none => false
    if x.oldGen.isSome && (switched x || late) then
      modSess s sess fun y => { y with oldGen := none, keys := y.keys.filter fun k => k.1 == y.gen }
    else s

/-- RTO_EXPIRY (R590, R591): an ACK frame's timeout runs only while some higher sequence is accepted. -/
def execRtoExpiry (sess seq : Nat) (s : State) : Host.Outcome State Fault Refusal :=
  .next <| onServed s sess fun x =>
    match x.unacked.find? fun f => f.seq == seq with
    | some f =>
      if f.rtoAt ≤ now s ∧ (f.typ ≠ 5 ∨ f.runs = true) then
        resendFrame (modSess s sess fun y => { y with rto := min 1600000 (2 * y.rto) }) sess seq
      else s
    | none => s

/-- ACK_DELAY_EXPIRY (R588). -/
def execAckDelayExpiry (sess : Nat) (s : State) : Host.Outcome State Fault Refusal :=
  .next <| onServed s sess fun x =>
    match x.ackDue with
    | some t => if t ≤ now s ∧ x.live = true then sendAck s sess else s
    | none => s

/-- KEEPALIVE (R602): no protected frame for 1 s. -/
def execKeepalive (sess : Nat) (s : State) : Host.Outcome State Fault Refusal :=
  .next <| onServed s sess fun x =>
    if (x.state == .established || x.state == .rekeying) && due s x.lastTx tickS then sendAck s sess else s

/-- Reason of R603 that applies, if any. -/
def idleReason (s : State) (x : Session) : Option Nat :=
  let n := idleTicks s x.port
  if due s x.lastRx n then some 9
  else if x.unacked.any fun f => decide (x.peerAck ≤ f.seq) && due s f.sentAt n then some 10
  else if (x.again ++ x.outq).any fun r => due s r.waiting n then some 11 else none

/-- IDLE_EXPIRY (R603). -/
def execIdleExpiry (sess : Nat) (s : State) : Host.Outcome State Fault Refusal :=
  .next <| onServed s sess fun x =>
    if x.live = true ∧ x.state ≠ .closing then
      match idleReason s x with
      | some r => closeSess s sess St.sessionExpired r
      | none => s
    else s

/-- HALF_OPEN_EXPIRY (R568): freed after 2 s; its ID goes into quarantine. -/
def execHalfOpenExpiry (sess : Nat) (s : State) : Host.Outcome State Fault Refusal :=
  .next <| match findSess s sess with
  | some x => if x.state = .halfOpen ∧ due s x.opened (2 * tickS) = true then endSession s sess else s
  | none => s

/-- CLOSE_TIMEOUT (R604). -/
def execCloseTimeout (sess : Nat) (s : State) : Host.Outcome State Fault Refusal :=
  .next <| match findSess s sess with
  | some x => if x.state = .closing ∧ due s x.closeAt (100 * tickMs) = true then endSession s sess else s
  | none => s

/-- QUARANTINE_EXPIRY (R606). -/
def execQuarantineExpiry (sess : Nat) (s : State) : Host.Outcome State Fault Refusal :=
  .next { s with net := { s.net with
    quarantine := s.net.quarantine.filter fun q => !(q.1 == sess && due s q.2 (60 * tickS)) } }

/-- RETENTION_REMOVAL (R599, R600): acknowledged, and `retain_ms` after its first sending. -/
def execRetentionRemoval (sess reqId : Nat) (s : State) : Host.Outcome State Fault Refusal :=
  .next <| onServed s sess fun x =>
    match findRet s sess reqId with
    | some e =>
      let old := match e.sentAt with
        | some t => due s t (retainTicks s x.port)
        | none => false
      if e.reply.isSome && e.acked && old then
        let s := { s with net := { s.net with
          retention := s.net.retention.filter fun y => !(y.sess == sess && y.reqId == reqId) } }
        if s.prl.joined && e.mirrored then sendPlp s 5 [sess, reqId, 0] else s
      else s
    | none => s

end Sys2Proof.Machine
end

