-- ==== Sys2Proof/Machine/Life.lean ====
section
/-! DEFINITION. The life of a unit (chapters 19 and 21): main power and RESET_N, the start stages of Table 19.1, life-cycle
transitions (R736 to R741), test tokens, and debug grants. -/

namespace Sys2Proof.Machine

/-! ### Loss of main power and start (R723, R791, R792) -/

/-- Stored bits that outlast a loss of main power: the battery-backed loop settings (R696). -/
def keptRegs (l : List (Nat × BitVec 32)) : List (Nat × BitVec 32) := l.filter fun r => r.1 == 0x000F0020

/-- What is kept of a port: its link. -/
def keptPort (p : Port) : Port := { linkUp := p.linkUp }

/-- Binnacle without what ends at a start (Tables 18.1, 18.4, R696): the conditions of sources 0-15 are watched on. -/
def keptBin (b : Bin) : Bin :=
  { b with
    sources := Vector.ofFn fun n : Fin 29 =>
      if n.val < 16 then { b.sources.get n with count := 0 } else {}
    resp := Vector.ofFn fun n : Fin 29 => if n.val < 16 then b.resp.get n else none
    throttle := [], lockNew := false, lock := false, evidenceLost := 0, queueLost := 0 }

/-- What volatile state leaves behind: NAND, OTP, Binnacle, and the model's own counts of draws, serials and secrets. -/
def nonVolatile (s : State) : State :=
  { variant := s.variant, suffixE := s.suffixE, serial := s.serial, pending := s.pending, free := s.free, out := s.out
    dsp := { nextSerial := s.dsp.nextSerial }
    ksc := { rootCheck := s.ksc.rootCheck, readOnly := s.ksc.readOnly, wseq := s.ksc.wseq, own := s.ksc.own,
             recWseq := s.ksc.recWseq, base := s.ksc.base, baseCsn := s.ksc.baseCsn, commits := s.ksc.commits,
             digest0 := s.ksc.digest0, blockWseq := s.ksc.blockWseq, die0 := s.ksc.die0, die1 := s.ksc.die1,
             durable := s.ksc.durable, nextUid := s.ksc.nextUid, erase := s.ksc.erase, spares := s.ksc.spares,
             erases := s.ksc.erases, erasing := s.ksc.erasing, images := s.ksc.images, loading := s.ksc.loading,
             erasedTo := s.ksc.erasedTo,
             wasFaulted := (s.ins.filter fun x => x.state == .faulted).map (·.id) ++ s.ksc.wasFaulted }
    mer := { elapsed := s.mer.elapsed }
    net := { ports := s.net.ports.map keptPort, record := s.net.record, vlanRecord := s.net.vlanRecord }
    prl := { unitId := s.prl.unitId, peerId := s.prl.peerId, paired := s.prl.paired, preferred := s.prl.preferred,
             solo := s.prl.solo, renounced := s.prl.renounced, retired := s.prl.retired, divList := s.prl.divList,
             divAll := s.prl.divAll, epoch := s.prl.epoch, pairKey := s.prl.pairKey, aliveIn := s.prl.aliveIn }
    bin := keptBin s.bin
    lcf := { s.lcf with stage := 0, holdWater := false, romHold := false, failure := 0, running := false, badTokens := 0,
                        fwStage := [], challenge := none, thapraOk := false, ownerOk := false, restartAfter := false,
                        held := none, deferredFailure := 0 }
    log := { s.log with frozen := none, missed := 0, side := [], sideLost := 0, trbInst := [], trbMod := [] }
    pwr := { vmainOk := s.pwr.vmainOk, vmainAt := s.pwr.vmainAt, pwrGood := s.pwr.pwrGood, pwrGoodAt := s.pwr.pwrGoodAt,
             resetN := s.pwr.resetN }
    smb := s.smb
    qrm := { nextNum := s.qrm.nextNum, copy := s.qrm.copy }
    regs := keptRegs s.regs }

/-- A start begins: POWER runs (R723), and Binnacle copies the disable fuses (R706). -/
def beginStart (s : State) : State :=
  let s := nonVolatile s
  seedClock { s with
    pwr := { s.pwr with mainPower := true, starting := true, domains := presentDomains s.variant }
    bin := { s.bin with fuseCopy := s.bin.disabled }
    log := { s.log with optimeAt := now s } }

/-- Onset of an orderly power-down (R768, R791): volatile state and undrained Log records are lost, and the fence falls. -/
def beginPowerDown (s : State) : State :=
  if s.pwr.mainPower = false then s
  else
    let s := nonVolatile s
    { s with
      pwr := { s.pwr with downRunning := true }
      log := { s.log with ring := [], wptr := 0, undrained := 0, orderlyLast := false } }

/-- A start begins where power and RESET_N permit it; a running power-down completes first (R792). -/
def tryStart (s : State) : State :=
  if s.pwr.pwrGood = true ∧ s.pwr.resetN = true ∧ s.pwr.downRunning = false ∧ s.pwr.mainPower = false then beginStart s
  else s

/-- PWR_GOOD_ASSERT (R723). -/
def execPwrGoodAssert (s : State) : Host.Outcome State Fault Refusal :=
  .next <| if s.pwr.pwrGood then s
  else tryStart { s with pwr := { s.pwr with
    pwrGood := true, pwrGoodAt := now s, startAsked := s.pwr.startAsked || s.pwr.downRunning } }

/-- PWR_GOOD_DEASSERT (R791). -/
def execPwrGoodDeassert (s : State) : Host.Outcome State Fault Refusal :=
  .next (beginPowerDown { s with pwr := { s.pwr with pwrGood := false } })

/-- VMAIN_BELOW_THRESHOLD (R791). -/
def execVmainBelowThreshold (s : State) : Host.Outcome State Fault Refusal :=
  .next (beginPowerDown { s with pwr := { s.pwr with vmainOk := false } })

/-- VMAIN_IN_RANGE (R790, R801): the SMBus target powers up, and without a cell the Binnacle domain too (R696). -/
def execVmainInRange (s : State) : Host.Outcome State Fault Refusal :=
  .next <| if s.pwr.vmainOk then s
  else
    let s := if binnacleFed s then s else binnacleCold s
    { s with pwr := { s.pwr with vmainOk := true, vmainAt := now s }, smb := {} }

/-- RESET_N_ASSERT (R792): low for 10 µs. -/
def execResetNAssert (s : State) : Host.Outcome State Fault Refusal :=
  .next (beginPowerDown { s with pwr := { s.pwr with resetN := false } })

/-- RESET_N_RELEASE (R792). -/
def execResetNRelease (s : State) : Host.Outcome State Fault Refusal :=
  .next <| if s.pwr.resetN then s
  else tryStart { s with pwr := { s.pwr with resetN := true, startAsked := s.pwr.startAsked || s.pwr.downRunning } }

/-- POWER_DOWN_COMPLETE (R767, R791, R792): operating time and `orderly_last` are saved; a start that has been asked for
meanwhile begins 10 ms later. -/
def execPowerDownComplete (s : State) : Host.Outcome State Fault Refusal :=
  .next <| if s.pwr.downRunning then
    let t := { s with
      pwr := { s.pwr with downRunning := false, startAsked := false }
      log := { s.log with savedOptime := s.log.optime, orderlyLast := true } }
    let t := if s.pwr.startAsked then tryStart t else t
    if t.pwr.mainPower then { t with pwr := { t.pwr with startAt := now s + 10 * tickMs } } else t
  else s

/-- The cold-plate face lies in the range of its suffix (Table 0.2). -/
def faceInRange (s : State) (celsius : Int) : Bool :=
  if s.suffixE then decide (-5 ≤ celsius ∧ celsius ≤ 55) else decide (0 ≤ celsius ∧ celsius ≤ 45)

/-- COLD_PLATE_OUT_OF_RANGE (R804): ALERT_N asserts as the face leaves its range. -/
def execColdPlateOutOfRange (celsius : Int) (s : State) : Host.Outcome State Fault Refusal :=
  .next <|
    let out := !faceInRange s celsius
    { s with smb := { alert := s.smb.alert || (out && !s.smb.faceOut), faceOut := out } }

/-! ### Transitions (Tables 19.7, 19.8) -/

/-- Steps of a transition. -/
def stepsOf (code : Nat) : Nat := if code = 4 ∨ code = 7 then 4 else if code = 6 then 3 else 2

/-- A progress record has unmarked steps. -/
def Progress.open_ (p : Progress) : Bool := decide (p.marks < 2 ^ stepsOf p.code - 1)

/-- The latest progress record, where its transition has not ended. -/
def openTransition (s : State) : Option Progress :=
  match s.lcf.progress.getLast? with
  | some p => if p.open_ then some p else none
  | none => none

/-- First unmarked step, from 0. -/
def Progress.next (p : Progress) : Nat := ((List.range 4).find? fun k => !bitOf p.marks k).getD 4

/-- Program the life-cycle words up to word `n` (R736). -/
def programWords (s : State) (n : Nat) : State :=
  { s with lcf := { s.lcf with
    words := Vector.ofFn fun i : Fin 24 => if i.val < n then lcPattern (i.val + 1) else s.lcf.words.get i } }

/-- Words of the state that a transition leads to (Table 19.6). -/
def wordsAfter (s : State) (code : Nat) : Nat :=
  if code ≤ 3 then (lcWords s).getD 0 + 1 else 14 + code

/-- S1 of codes 6 and 7: S_b is cleared, with the effects of Z3 and Z4. -/
def wipeKeys (s : State) : State := zeroZ4 (zeroZ3 s)

/-- S2 of codes 6 and 7: the NAND store with its unit-local records (R623), the officer copy and the pair flags; for
SCRAPPED the rest of NAND with the Log (R769). The RMA transition alone ends a read-only store (R401). -/
def eraseStore (s : State) (all : Bool) : State :=
  { s with
    ksc := { nextUid := s.ksc.nextUid, spares := s.ksc.spares, erases := s.ksc.erases, wseq := s.ksc.wseq
             useClock := s.ksc.useClock, readOnly := all && s.ksc.readOnly }
    prl := { aliveIn := s.prl.aliveIn, epoch := s.prl.epoch }
    bin := { s.bin with officerDigest := none }
    qrm := { s.qrm with copy := none }
    log := if all then { s.log with nand := [], head := 0, wrapped := false } else s.log
    lcf := { s.lcf with
      slotAFw := if all then {} else s.lcf.slotAFw
      slotBFw := if all then {} else s.lcf.slotBFw } }

/-- Every SRAM array holds zeros. -/
def zeroSram (s : State) : State :=
  { s with
    cores := s.cores.map clearCore, scratch := Vector.replicate 8 [], cvctx := Vector.replicate 144 {}
    ksc := { s.ksc with cache := [], counters := [] } }

/-- A new root share in Binnacle. -/
def newShare (s : State) : State :=
  { s with free := s.free + 1, bin := { s.bin with share := true, shareId := s.free + 1, zeroize := false } }

/-- Mark token `j` used. -/
def useToken (s : State) (j : Nat) : State :=
  { s with lcf := { s.lcf with
      tokensUsed := if bitOf s.lcf.tokensUsed (j - 1) then s.lcf.tokensUsed else s.lcf.tokensUsed + 2 ^ (j - 1) } }

/-- The last step: the words of the new state. -/
def lastStep (s : State) (code : Nat) : State :=
  let before := (lcWords s).getD 0
  let s := programWords s (wordsAfter s code)
  if code = 2 ∨ code = 3 then { s with lcf := { s.lcf with held := some before } } else s

/-- The helper data is enrolled from a reading of the PUF array (R357, log 15). -/
def enrolHelper (s : State) : State :=
  { s with free := s.free + 1, lcf := { s.lcf with pufHelper := some (cryptoBytes .pufHelper [freeBytes s.free 64] 64) } }

/-- Effect of step `k` (from 0) of a transition (Table 19.7); S1 of code 5 checks, and changes nothing. -/
def stepEffect (s : State) (p : Progress) (k : Nat) : State :=
  if k + 1 = stepsOf p.code then lastStep s p.code
  else match p.code, k with
    | 2, _ => useToken s p.token
    | 3, _ => zeroSram s
    | 4, 0 => enrolHelper s
    | 4, 1 => newShare s
    | 4, _ => { s with lcf := { s.lcf with tokens := [] } }
    | 6, 0 | 7, 0 => wipeKeys s
    | 6, _ => eraseStore s false
    | 7, 1 => eraseStore s true
    | 7, _ =>
      { s with lcf := { s.lcf with
        tokens := List.replicate 8 (List.replicate 32 0xFF), tokensUsed := 255
        pufHelper := some (List.replicate 64 0xFF), serviceSeed := some (List.replicate 32 0xFF)
        owner := some (List.replicate 32 0xFF), slotAFw := {}, slotBFw := {} } }
    | _, _ => s

/-- The step can be done: S1 of code 5 needs the keys and the owner key digest. -/
def stepReady (s : State) (p : Progress) (k : Nat) : Bool :=
  p.code != 5 || k != 0 || (s.ksc.own.isSome && s.lcf.serviceSeed.isSome && s.lcf.owner.isSome)

/-- Do the first unmarked step of the open transition and mark it. -/
def doStep (s : State) : State :=
  match openTransition s with
  | none => s
  | some p =>
    if stepReady s p p.next = false then s
    else
      let s := stepEffect s p p.next
      { s with lcf := { s.lcf with
        progress := s.lcf.progress.dropLast ++ [{ p with marks := p.marks + 2 ^ p.next }] } }

/-- Take the next free progress record and begin a transition; from SERVICE through Hold-Water (R737). -/
def beginTransition (s : State) (code token : Nat) : State :=
  let serving := inService s && decide (4 ≤ code)
  let s := if serving then enterHoldWater s 0 else s
  { s with lcf := { s.lcf with
    progress := s.lcf.progress ++ [{ code := code, marks := 0, token := token }], running := true
    restartAfter := serving } }

/-- A transition is accepted: `en` is 1 (R751), a progress record is free and no transition runs (R739). -/
def mayTransit (s : State) : Bool :=
  blockEn s 16 0 && decide (s.lcf.progress.length < 32) && (openTransition s).isNone

/-- LIFECYCLE_TRANSITION (R737): one step of the running transition; a failed step stops it until the next start. -/
def execLifecycleTransition (stepOk : Bool) (s : State) : Host.Outcome State Fault Refusal :=
  .next <|
    if s.lcf.running = false ∨ s.pwr.mainPower = false then s
    else if stepOk = false then { s with lcf := { s.lcf with running := false } }
    else
      let s := doStep s
      if (openTransition s).isSome then s
      else if s.lcf.restartAfter then beginStart s
      else { s with lcf := { s.lcf with running := false } }

/-- TEST_TOKEN (R746): OTP holds the digests of the tokens. -/
def execTestToken (token : List Byte) (s : State) : Host.Outcome State Fault Refusal :=
  .next <|
    if s.pwr.mainPower = false ∨ lcState s ≠ .testLocked ∨ 16 ≤ s.lcf.badTokens then s
    else
      let j := ((List.range 8).find? fun i => !bitOf s.lcf.tokensUsed i).getD 8
      if s.lcf.tokens[j]? = some (sha3_256 token) then (if mayTransit s then beginTransition s 2 (j + 1) else s)
      else logOpen { s with lcf := { s.lcf with badTokens := satInc 255 s.lcf.badTokens } } 0x10 1

/-- FACTORY_JTAG_COMMAND (Table 19.7): transitions 1, 3 and 7. -/
def execFactoryJtagCommand (code : Nat) (tokens : List (List Byte)) (s : State) : Host.Outcome State Fault Refusal :=
  .next <|
    let lc := lcState s
    let ok := match code with
      | 1 => lc == .raw && decide (tokens.length = 8)
      | 3 => lc == .testUnlocked
      | 7 => lc == .raw || lc == .testLocked || lc == .testUnlocked
      | _ => false
    if s.pwr.mainPower && ok && mayTransit s then
      beginTransition (if code = 1 then { s with lcf := { s.lcf with tokens := tokens } } else s) code 0
    else s

/-! ### Start stages (Table 19.1) -/

/-- The start is at a stage and has not failed. -/
def atStage (s : State) (n : Nat) : Bool :=
  s.pwr.mainPower && s.pwr.starting && s.lcf.stage == n && s.lcf.deferredFailure == 0

/-- The next stage begins. -/
def toStage (s : State) (n : Nat) : State := { s with lcf := { s.lcf with stage := n } }

/-- POWER. -/
def execPower (ok : Bool) (s : State) : Host.Outcome State Fault Refusal :=
  .next <| if atStage s 0 = false ∨ now s < s.pwr.startAt then s else if ok then toStage s 1 else failStart s 0x0001

/-- The event of a start in DEPLOYED with `first_power` set (R716). -/
def firstPowerEvent (s : State) : State :=
  if s.bin.firstPower = true ∧ lcState s = .deployed then latchEvidence s (eventOf s 14 4 0 false) else s

/-- The power-cycle count advances (R767). -/
def countCycle (s : State) : State := { s with bin := { s.bin with cycles := satInc 16777215 s.bin.cycles } }

/-- Events latched on backup are written to the Log (R714). -/
def logBackup (s : State) : State :=
  (s.bin.pend.filter fun e => e.phase == 2).foldl (fun s e =>
    logFull s 0x0F01 0x0F 4 false 0 [e.src, e.resp, e.detail, e.phase] (decide (2 ≤ e.resp))) s

/-- BINNACLE_CHECK (R716, R717, R720, R729); the boot ROM loads the ports' configuration record (R548). -/
def execBinnacleCheck (progOk : Bool) (s : State) : Host.Outcome State Fault Refusal :=
  .next <|
    if atStage s 1 = false then s
    else
      let s := loadVlans (loadRecord bootLoads (logBackup (firstPowerEvent (countCycle s))))
      if progOk = false ∧ (s.bin.pend ≠ [] ∨ s.bin.overflow ≠ 0) ∧ evidenceFull s = false then failStart s 0x0101
      else
        let s := (List.range (s.bin.pend.length + 1)).foldl (fun s _ => programOne s true) s
        if evidenceFull s then failStart s fcEvidenceFull else toStage s 2

/-- The boot ROM holds the unit (R726). -/
def romHold (s : State) (code : Nat) : State :=
  { s with lcf := { s.lcf with romHold := true, failure := code }, pwr := { s.pwr with starting := false } }

/-- FUSE_LOAD is due: it runs in its order, and after a failed BINNACLE_CHECK or a tamper response for an interrupted
transition alone (R730). -/
def fuseDue (s : State) : Bool :=
  s.pwr.mainPower && s.pwr.starting && !blockEn s 16 0 &&
    (s.lcf.stage == 2 || (s.lcf.stage == 1 && s.lcf.deferredFailure != 0))

/-- The next step of an interrupted transition, where it is not the one that fails (R738). -/
def resumeStep (stuckAt : Option Nat) (s : State) : State :=
  if (openTransition s).any fun p => stuckAt == some p.next then s else doStep s

/-- FUSE_LOAD (R735 to R738): `stuckAt` is the step, from 0, of an interrupted transition that failed three times. -/
def execFuseLoad (stuckAt : Option Nat) (s : State) : Host.Outcome State Fault Refusal :=
  .next <|
    if fuseDue s = false then s
    else
      let s := (List.range 4).foldl (fun s _ => resumeStep stuckAt s) s
      let s := setBit s 0x00100004 0
      if lcState s = .scrapped then romHold s 0x0205
      else if s.lcf.deferredFailure ≠ 0 then s
      else if (openTransition s).isSome then failStart s 0x0202
      else match lcState s with
        | .invalid => failStart s 0x0201
        | .raw | .testLocked | .testUnlocked => failStart s 0x0203
        | _ => toStage s 3

/-- COX_BOOT is due (R726). -/
def coxDue (s : State) : Bool :=
  s.pwr.mainPower && s.pwr.starting &&
    ((s.lcf.stage == 3 && !blockEn s 0 0) ||
      (s.lcf.deferredFailure != 0 && decide (s.lcf.stage ≤ 2) && (s.lcf.stage == 0 || blockEn s 16 0)))

/-- The boot ROM accepts a firmware image (R742). -/
def fwOk (s : State) (f : FwSlot) : Bool := f.valid && decide (s.lcf.floor ≤ f.secVersion)

/-- Cox loads the rest of the ports' configuration (R548), sets `en` of its blocks (R444, R693, R705, R752, R787) and starts
the noise sources (R525). -/
def coxStarts (s : State) : State :=
  let s := [0, 15, 17, 18, 19, 20, 21].foldl (fun s b => setBit s (b * 0x10000 + 4) 0) (loadRecord coxLoads s)
  let s := setWl s 0x000E0004 0
  let n := min 16777215 (s.log.savedCycles + 1)
  let s := if s.bin.firstPower then { s with bin := { s.bin with cycles := n } } else s
  startSources { s with log := { s.log with savedCycles := s.bin.cycles } }

/-- COX_BOOT (R726, R742): the active slot is tried first. -/
def execCoxBoot (s : State) : Host.Outcome State Fault Refusal :=
  .next <|
    if coxDue s = false then s
    else if lcState s = .scrapped then romHold s 0x0205
    else
      let a := fwOk s s.lcf.slotAFw
      let b := fwOk s s.lcf.slotBFw
      if (a || b) = false then
        romHold (toStage s 3) (if s.lcf.slotAFw.valid || s.lcf.slotBFw.valid then 0x0302 else 0x0301)
      else
        let s := { s with lcf := { s.lcf with slotB := if s.lcf.slotB then b else !a } }
        let s := coxStarts s
        if s.lcf.deferredFailure ≠ 0 then enterHoldWater s s.lcf.deferredFailure else toStage s 4

/-- An engine that passed its tests comes online; one that failed stays offline with a Log record (R728), as does one that
went offline earlier in this start (R459). -/
def symTested (s : State) (k : SymKind) (n : Nat) (bad : Bool) : State :=
  let e := engineOf s k n
  if e.katFail then s
  else if bad then logOpen (setBit (setEngine s k n { e with online := false, katFail := true }) (winBase (kindBlock k) n + 4) 0 false)
    (kindBlock k) 3 [n]
  else setBit (setEngine s k n { e with online := true, katFail := false }) (winBase (kindBlock k) n + 4) 0

/-- Units of a kind present in the variant. -/
def kindUnits (v : Variant) : SymKind → List Nat
  | .cipher | .hash => List.range v.symEngines
  | .check => List.range v.crews ++ [8]

/-- Pool engines likewise: one that went offline stays so until the next start (R492, R518). -/
def poolTested {n : Nat} (p : Pool n) (bad : List Nat) (present : Nat) : Pool n :=
  { p with engines := Vector.ofFn fun i : Fin n =>
      { p.engines.get i with
        online := decide (i.val < present) && !bad.contains i.val && !(p.engines.get i).katFail
        katFail := bad.contains i.val || (p.engines.get i).katFail } }

/-- `en` of tested pool engines; a Log record for each that failed. Those in `down` were offline before. -/
def poolEnable (s : State) (blk present : Nat) (bad down : List Nat) : State :=
  (List.range present).foldl (fun s n =>
    if down.contains n then s
    else if bad.contains n then logOpen (setBit s (winBase blk n + 4) 0 false) blk 3 [n] else setBit s (winBase blk n + 4) 0) s

/-- Outcome of row 1 of Table 19.3 in the engines. -/
def applyTests (s : State) (r : SelfTest) : State :=
  let v := s.variant
  let s := (kindUnits v .cipher).foldl (fun s n => symTested s .cipher n (r.badCipher.contains n)) s
  let s := (kindUnits v .hash).foldl (fun s n => symTested s .hash n (r.badHash.contains n)) s
  let s := (kindUnits v .check).foldl (fun s n => symTested s .check n (r.badCheck.contains n)) s
  let down := fun (l : List PoolEngine) => (List.range l.length).filter fun n => (l.getD n {}).katFail
  let (d8, d9) := (down s.bne.engines.toList, down s.lte.engines.toList)
  let s := { s with bne := poolTested s.bne r.badBne v.bneEngines, lte := poolTested s.lte r.badLte v.lteEngines }
  poolEnable (poolEnable s 8 v.bneEngines r.badBne d8) 9 v.lteEngines r.badLte d9

/-- Row 1 fails the stage (Table 19.3). -/
def row1Fails (v : Variant) (r : SelfTest) : Bool :=
  let all := fun (l bad : List Nat) => l.all bad.contains
  all (List.range v.symEngines) r.badCipher || all (List.range v.symEngines) r.badHash
    || all (kindUnits v .check) r.badCheck || all (List.range v.bneEngines) r.badBne
    || all (List.range v.lteEngines) r.badLte
    || (List.range v.crews).any fun k =>
      all [2 * k, 2 * k + 1] r.badCipher || all [2 * k, 2 * k + 1] r.badHash

/-- A noise source failed its test at enable and all three repeats (R535). -/
def sourceFailed (s : State) : Bool := s.rng.src.toList.any (· == .retired)

/-- Failure code of SELF_TEST; 0 where it passes (Tables 19.2, 19.3). -/
def selfTestCode (s : State) (r : SelfTest) : Nat :=
  if row1Fails s.variant r || !r.row2 then 0x0401 else if !r.row3 then 0x0402 else if !r.row4 then 0x0403
  else if sourceFailed s then 0x0404 else 0

/-- SELF_TEST (R728, R735): passing needs every DRBG instance seeded (R532). -/
def execSelfTest (r : SelfTest) (s : State) : Host.Outcome State Fault Refusal :=
  .next <|
    if atStage s 4 = false then s
    else
      let code := selfTestCode s r
      if code ≠ 0 then failStart s code
      else if allSeeded s = false then s
      else
        let s := applyTests s r
        if lcState s = .rma then enterHoldWater s 0x0204 else toStage s 5

/-- The module root key of a reading: S_p by the helper data, with S_b (R357, R358). -/
def rootKey (reading helper : List Byte) (shareId : Nat) : List Byte :=
  kmac256 (cryptoBytes .pufSecret [reading, helper] 32) (freeBytes shareId 32) 32 (ascii "WX-ROOT")

/-- A key of Table 8.1. -/
def rootDerived (mrk : List Byte) (x : String) : List Byte := kmac256 mrk (ascii x) 32 (ascii "WX-KDF")

/-- The KSC holds the derived keys (R358). -/
def takeRoot (s : State) (mrk : List Byte) : State :=
  { s with ksc := { s.ksc with
      rootOk := true, kRecord := some (rootDerived mrk "RECORD"), kJournal := some (rootDerived mrk "JOURNAL") } }

/-- PUF_ROOT (R357 to R360) on what the one read of the PUF array gives, in three parts (log 15). -/
def execPufRoot (low mid high : List Byte) (s : State) : Host.Outcome State Fault Refusal :=
  .next <|
    if atStage s 5 = false then s
    else
      let reading := low ++ mid ++ high
      let helper := s.lcf.pufHelper.getD []
      let s := { s with ksc := { s.ksc with pufErr := min 65535 (Config.pufCorrected reading helper) } }
      let mrk := rootKey reading helper s.bin.shareId
      let check := (rootDerived mrk "CHECK").take 16
      if s.bin.share = false then failStart s 0x0501
      else if (s.lcf.pufHelper.isSome && Config.cryptoOk .pufSecret [reading, helper]) = false then failStart s 0x0502
      else match s.ksc.rootCheck with
        | some c => if c = check then toStage (takeRoot s mrk) 6 else failStart s 0x0503
        | none =>
          if lcState s = .provisioning then
            let s := takeRoot s mrk
            toStage { s with ksc := { s.ksc with rootCheck := some check } } 6
          else failStart s 0x0503

/-- DRAM_TRAIN_TEST (R658, R692): the MEC draws M and waits for the system DRBG. -/
def execDramTrainTest (trained tested : Bool) (s : State) : Host.Outcome State Fault Refusal :=
  .next <|
    if atStage s 6 = false then s
    else if trained = false then failStart s 0x0601
    else if tested = false then failStart s 0x0602
    else match sysDraw s .mec 32 with
      | none => sysWait s .mec
      | some (k, s) => toStage (setWl { s with mec := { s.mec with master := k, drawnAt := now s } } 0x000D0004 0) 7

/-- The journal as NAND holds it: a block that either die holds is read, and a last block that fails on both never became
durable and is discarded with a Log record (R60, R397, log 105). Deletes that had not been visible are from here on
(R321, R379). -/
def replayJournal (s : State) (lastBad : Bool) : State :=
  let n := max s.ksc.die0 s.ksc.die1
  let held := s.ksc.commits.filter fun m => decide (m.csn ≤ n)
  let inFlight := s.ksc.commits.any fun m => decide (n < m.csn)
  let kept := if lastBad && !inFlight then held.dropLast else held
  let s := if lastBad && (inFlight || !held.isEmpty) then logOpen s 4 5 else s
  let top := kept.foldl (fun n m => max n m.csn) s.ksc.baseCsn
  let s := { s with ksc := { s.ksc with commits := kept, die0 := top, die1 := top, durable := top, v := top } }
  let new := kept.filter fun m : Commit => decide (s.ksc.erasedTo < m.csn)
  let s := new.foldl (fun s m => m.recs.foldl (deletesOf (cfgAt s (m.csn - 1))) s) s
  followImages (followCopy { s with ksc := { s.ksc with erasedTo := max s.ksc.erasedTo top } })

/-- A resident image that fails its check is not resident (R744). -/
def rejectImage (s : State) (x : Nat × Nat × Nat) : State :=
  if s.ksc.images.any (fun y => (y.dom, y.image, y.version) == x) then
    let s := { s with ksc := { s.ksc with images := s.ksc.images.filter fun y => (y.dom, y.image, y.version) != x } }
    alarmEvent (logOpen s 4 6 [x.1, x.2.1, x.2.2]) 26 x.2.1
  else s

/-- The committed profile is in effect from here on, without a switch of its own (R783). -/
def loadProfile (s : State) : State :=
  let p := (cfgV s).profile
  let down := downDomains s.variant p.code
  let s := { s with pwr := { s.pwr with
    committed := p, effective := p.code, domains := (presentDomains s.variant).filter fun d => !down.contains d } }
  store s 0x000C0014 (coverOf p.code)

/-- In PROVISIONING the module generates its own keys and Cox its service key (R440, R733); none while the system DRBG cannot
serve. -/
def generateOwn (s : State) : Option State :=
  if lcState s ≠ .provisioning ∨ s.ksc.own.isSome = true then some s
  else
    (sysDraw s .ksc 32).bind fun i => (sysDraw i.2 .ksc 32).bind fun a => (sysDraw a.2 .ksc 64).bind fun b =>
      (sysDraw b.2 .unit 32).map fun c =>
      { c.2 with
        ksc := { c.2.ksc with own := some { identity := i.1, attest := a.1, backup := b.1
                                            attestDigest := sha3_256 (derivePublic 0x28 a.1 1312) } }
        lcf := { c.2.lcf with serviceSeed := some c.1 } }

/-- KEYSTORE_OPEN (R60, R344, R397, R404, R744). -/
def execKeystoreOpen (lastBad damaged : Bool) (badImages : List (Nat × Nat × Nat)) (s : State) :
    Host.Outcome State Fault Refusal :=
  .next <|
    if atStage s 7 = false then s
    else if damaged then failStart s 0x0701
    else match generateOwn s with
      | none => sysWait s .ksc
      | some s =>
        let s := replayJournal s lastBad
        let s := { s with ksc := { s.ksc with loaded := true, counters := [], issued := [] } }
        let s := badImages.foldl rejectImage s
        toStage (loadProfile (restartInsts (setBit { s with ksc := { s.ksc with wasFaulted := [] } } 0x00040004 0) s.ksc.wasFaulted)) 8

/-- PAIR_JOIN (R630): an unpaired unit serves at once; a paired one is JOINING, and hears its peer at once or after
`join_wait`. -/
def execPairJoin (peer : Option PeerHeard) (s : State) : Host.Outcome State Fault Refusal :=
  .next <|
    if (atStage s 8 && s.prl.state == .undecided) = false then s
    else if s.prl.retired then enterHoldWater s fcRetired
    else
      let s := setBit s 0x000C0004 0
      if s.prl.paired = false then serveSingle s
      else
        let s := enterJoining s
        match peer with
        | some p => if p.state = 1 ∨ p.state = 3 ∨ p.state = 5 then decideJoin s peer else s
        | none => s

/-! ### Debug (R748 to R752) -/

/-- Level of debug access in force: full in RAW and TEST_UNLOCKED (Table 19.13). -/
def debugLevel (s : State) : Nat := if (lcState s).factory then 3 else s.dbg.level

/-- A grant opens: level 2 in PROVISIONING and DEPLOYED zeroizes first (R749, R750). -/
def grantDebug (s : State) (level : Nat) : State :=
  let wipe := level == 2 && (lcState s == .provisioning || lcState s == .deployed)
  let s := if wipe then
      let s := zeroize s fcDebugZeroized
      logOpen { s with dbg := { s.dbg with zeroized := true } } 0x15 1
    else s
  { s with dbg := { s.dbg with level := level, granted := satInc 65535 s.dbg.granted } }

/-- A write of 1 to `relock` (Table 19.13). -/
def relock (s : State) : State := { s with dbg := { s.dbg with level := 0 } }

/-- DBG_RELOCK. -/
def execDbgRelock (s : State) : Host.Outcome State Fault Refusal := .next (relock s)

end Sys2Proof.Machine
end

