-- ==== Sys2Proof/Machine/RegView.lean ====
section
/-! DEFINITION. What each control-space register reads as (chapter 20 and each block's register section): stored bits where
software or hardware writes a field, and values computed from the blocks' state elsewhere. -/

namespace Sys2Proof.Machine

/-! ### Records shown eight words at a time -/

/-- Log record (Table 20.2). -/
def logBytes (r : LogRec) : List Byte :=
  leBytes 2 r.event ++ leBytes 1 r.source ++ leBytes 1 (r.sev + 16 * r.flags) ++ leBytes 4 r.optime ++ leBytes 3 r.cycles
    ++ zeros 1 ++ leBytes 2 r.target ++ leBytes 2 r.rseq
    ++ (List.range 4).flatMap fun i => leBytes 4 (r.params.getD i 0)

/-- Evidence record (Table 18.7). -/
def evidenceBytes (e : Evidence) (number : Nat) : List Byte :=
  leBytes 8 e.rtc ++ leBytes 1 e.src ++ leBytes 1 e.resp ++ leBytes 1 e.phase ++ leBytes 1 e.flags ++ leBytes 1 e.stage
    ++ leBytes 3 e.cycles ++ leBytes 4 e.detail ++ leBytes 4 e.optime ++ leBytes 2 number ++ zeros 6

/-- `n` words of a little-endian value, low word first. -/
def wordsOf (v : Nat) : Nat → List (BitVec 32)
  | 0 => []
  | n + 1 => BitVec.ofNat 32 v :: wordsOf (v / 2 ^ 32) n

/-- Eight words of a 32-byte record; zeros for none. -/
def recordWords (b : Option (List Byte)) : List (BitVec 32) := wordsOf (leNat (b.getD [])) 8

/-! ### Fields computed from state -/

/-- Sum of the set bits of a list of truth values. -/
def maskOf (l : List Bool) : Nat := (l.zip (List.range l.length)).foldl (fun n p => n + b2n p.1 * 2 ^ p.2) 0

/-- Value saturated at `n` bits. -/
def sat (n v : Nat) : Nat := min (2 ^ n - 1) v

/-- Two 16-bit counters. -/
def pair16 (a b : Nat) : Nat := sat 16 a + 2 ^ 16 * sat 16 b

def InstState.code : InstState → Nat
  | .disabled => 0 | .active => 1 | .quiescing => 2 | .resetting => 3 | .faulted => 4

def CerState.code : CerState → Nat
  | .open => 1 | .complete => 2 | .carriedOut => 3 | .lapsed => 4 | .cancelled => 5 | .failed => 6

/-- MOD (Table 20.8). -/
def liveMod (s : State) : Nat → Option Nat
  | 0x008 => some (4 * b2n s.log.orderlyLast)
  | 0x00C => some ((match s.variant with | .wx7480 => 0x80 | .wx7440 => 0x40)
      + 2 ^ 8 * (if s.suffixE then 0x45 else 0x43) + 2 ^ 16 * s.variant.crews)
  | 0x010 => some s.log.optime
  | 0x014 => some (s.log.optime / 3600)
  | 0x018 => some s.bin.cycles
  | _ => none

/-- MER (Tables 2.5 to 2.8). `MER_OFFSET` shows Δ, held in half nanoseconds, rounded toward zero (log 97). -/
def liveMer (s : State) : Nat → Option Nat
  | 0x008 => some (4 * s.mer.state.code + 32 * b2n s.mer.ppsGood + 64 * b2n s.mer.qualified
      + 128 * b2n s.mer.stepPending + 256 * b2n s.mer.acqConflict + 1024 * b2n s.bin.rtcValid)
  | 0x018 => some s.mer.unc
  | 0x028 => some (twos (max (-(2 ^ 31)) (min (2 ^ 31 - 1) (s.mer.offset.tdiv 2))))
  | 0x02C => some (twos s.mer.slew)
  | 0x040 => some s.mer.ptpRej
  | 0x044 => some s.mer.ppsRej
  | _ => none

/-- C1 of Table 6.3 fails. -/
def paddleNow (s : State) : Bool := s.pwr.effective == 2 || s.pwr.forced

/-- C2 of Table 6.3 fails. -/
def meridianOut (s : State) : Bool := s.mer.state == .acquiring || s.mer.state == .adrift

/-- DSP (Tables 6.7 to 6.9). -/
def liveDsp (s : State) : Nat → Option Nat
  | 0x008 =>
    let c := [paddleNow s, meridianOut s, s.prl.failover, s.mec.paused]
    some (4 * b2n (c.all (!·)) + 8 * maskOf c)
  | 0x014 => some (sat 8 (holdSum (cfgV s) s.pwr.effective) + 2 ^ 8 * (if s.ksc.loaded then holdLimit s.variant s.pwr.effective else 0)
      + 2 ^ 16 * sat 4 (holdPerCrew s))
  | 0x018 => some (delayUse s)
  | 0x01C => some (s.dsp.parked.length + (s.dsp.work.filter (·.carry.isSome)).length)
  | 0x020 => some (sat 32 s.dsp.lag)
  | 0x02C => some (s.dsp.wptr + 2 ^ 16 * b2n s.dsp.wrapped)
  | 0x030 => some s.dsp.traceLost
  | _ => none

/-- INS (Table 7.8). -/
def liveIns (s : State) (off : Nat) : Option Nat :=
  let c := cfgV s
  let i := fld s 0x00030010 0 12
  let q := fld s 0x00030020 0 14
  match off with
  | 0x014 => some <| match insRt s i with
    | some x => x.state.code + 8 * b2n x.draining + 16 * b2n (((alGet c.insts i).map (·.enabled)).getD false)
        + 2 ^ 8 * ((alGet c.insts i).map (·.dom)).getD 0 + 2 ^ 24 * x.hq.length
    | none => 7
  | 0x018 => some (instOcc s i)
  | 0x01C => some <| match insRt s i with
    | some x => pair16 x.winCount x.ovf
    | none => 0
  | 0x024 => some (queueOcc s q + (match alGet c.queues q with | some b => 2 ^ 17 * b.inst + 2 ^ 29 | none => 0))
  | 0x028 => some (((alGet c.queues q).map (·.depth)).getD 0)
  | 0x02C => some (c.queues.foldl (fun n x => n + x.2.depth) 0)
  | _ => none

/-- KSC (Tables 8.8, 8.9): what the store holds is shown once KEYSTORE_OPEN has loaded it. -/
def liveKsc (s : State) : Nat → Option Nat
  | 0x008 => some (4 * b2n s.ksc.rootOk + 8 * b2n (s.ksc.loaded && s.ksc.readOnly))
  | 0x010 => some (sat 16 ((s.ksc.cache.foldl (fun n x => x.slots.foldl (fun n e => max n (now s - e.masked)) n) 0) / tickMs))
  | 0x014 => some (s.ksc.cache.foldl (fun n x => n + x.entries) 0)
  | 0x018 => some ((s.ksc.cache.filter fun x => pinned s x.name).foldl (fun n x => n + x.entries) 0)
  | 0x01C => some (if s.ksc.loaded then recordsIn (cfgAt s (lastCsn s)).keys else 0)
  | 0x030 => some (if s.ksc.loaded then sat 24 s.ksc.spares else 0)
  | 0x034 => some (if s.ksc.loaded then sat 24 (s.ksc.erase.map (·.block)).eraseDups.length else 0)
  | 0x038 => some s.ksc.pufErr
  | 0x03C => some s.ksc.resWait
  | _ => none

/-- CPH, HSH and CVU windows (Table 10.5, R473): window 8 shows the system check-value unit's number (R42). -/
def liveSym (s : State) (k : SymKind) (u : Nat) : Nat → Option Nat
  | 0x008 =>
    let e := engineOf s k u
    some (4 * b2n e.online + 8 * b2n e.recovering + 32 * b2n e.katFail
      + 2 ^ 16 * (if k = .check ∧ u = 8 then s.variant.sysUnit else u))
  | 0x00C =>
    let e := engineOf s k u
    some (e.jobs.length + 2 ^ 6 * (e.jobs.filter (·.held)).length + 2 ^ 12 * b2n (!e.saved.isEmpty))
  | 0x018 => some (engineOf s k u).checkFail
  | 0x01C => some (pair16 (engineOf s k u).faults (if k = .check then 0 else (engineOf s k u).yields))
  | _ => none

/-- BNE windows (Table 11.9). -/
def liveBne (s : State) (u : Nat) (off : Nat) : Option Nat :=
  let e : PoolEngine := vget s.bne.engines u {}
  match off with
  | 0x008 => some (4 * b2n e.online + 8 * b2n e.recovering + 32 * b2n e.katFail + 2 ^ 16 * u)
  | 0x00C => some (2 ^ 8 * slotCount (bneEngine s u))
  | 0x010 => some (e.jobs.length + 16 * b2n e.running.isSome + 2 ^ 16 * slotsUsed e)
  | 0x014 => some (b2n s.pwr.committed.blind128 + 2 * b2n (vasOn s))
  | 0x020 => some (pair16 e.generic e.invariant)
  | 0x024 => some (pair16 e.faults e.aborts)
  | 0x028 => some s.bne.places
  | _ => none

/-- LTE windows (Table 12.6). -/
def liveLte (s : State) (u : Nat) (off : Nat) : Option Nat :=
  let e : PoolEngine := vget s.lte.engines u {}
  match off with
  | 0x008 => some (4 * b2n e.online + 8 * b2n e.recovering + 32 * b2n e.katFail + 2 ^ 16 * u)
  | 0x00C => some (e.jobs.length + 8 * b2n e.running.isSome + 2 ^ 8 * e.cache.length)
  | 0x010 => some (b2n (vasOn s))
  | 0x01C => some (pair16 e.hits e.misses)
  | 0x030 => some e.iterMax
  | 0x034 => some (pair16 e.generic e.invariant)
  | 0x038 => some (pair16 e.faults e.aborts)
  | 0x03C => some s.lte.places
  | _ => none

/-- State code of a DRBG instance (Table 13.8): one whose reseed is due reseeds or stalls. -/
def drbgCode (s : State) (d : Drbg) : Nat :=
  match d.state with
  | .unseeded => 0
  | .serving => if d.reqs < 65536 then 1 else if s.rng.seedBuf.isEmpty then 3 else 2

/-- RNG (Tables 13.7, 13.8). -/
def liveRng (s : State) : Nat → Option Nat
  | 0x008 => some (4 * b2n (allSeeded s)
      + 8 * b2n (s.rng.src.toList.any fun x => x == .retest || x == .retired) + 16 * b2n s.rng.alarm)
  | 0x00C => some ((List.range 4).foldl (fun n i => n + (srcOf s i).code * 8 ^ i) 0 + 2 ^ 16 * s.rng.retests)
  | 0x010 => some s.rng.seedBuf.length
  | 0x018 =>
    let n := fld s 0x000A0014 0 4
    if s.variant.sysUnit < n then some 0
    else
      let d := vget s.rng.drbg n {}
      some (drbgCode s d + 4 * min 65536 d.reqs + 2 ^ 19 * sat 13 d.reseeds)
  | 0x01C => some (pair16 s.rng.rctFails s.rng.aptFails)
  | 0x028 => some (b2n s.rng.data.isSome)
  | _ => none

/-- HPT windows (Tables 14.17, 15.8). -/
def liveHpt (s : State) (u : Nat) (off : Nat) : Option Nat :=
  let p := portOf s u
  let own := s.net.sessions.filter fun x => x.port == u
  match off with
  | 0x008 => some (4 * b2n p.linkUp + 8 * b2n p.service)
  | 0x044 => some (sat 17 (own.filter (·.live)).length + 2 ^ 17 * sat 15 (own.filter fun x => !x.live).length)
  | 0x048 => some (pair16 p.dropLink p.dropWsp)
  | 0x04C => some p.aeadFail
  | 0x050 => some (pair16 p.helloOk p.helloDrop)
  | 0x054 => some (pair16 p.beaconOk p.beaconDrop)
  | 0x070 => some (pair16 p.dups p.beyond)
  | 0x074 => some p.retx
  | 0x078 => some (pair16 p.replayed p.idConflict)
  | 0x07C => some (pair16 p.closesTimeout p.closesError)
  | 0x080 => some (pair16 p.resyncs p.resyncDrop)
  | 0x084 => some (sat 21 s.net.retention.length + 2 ^ 21 * s.net.lostReplies)
  | _ => none

/-- PRL (Table 16.12). -/
def livePrl (s : State) : Nat → Option Nat
  | 0x008 =>
    let p := s.prl
    some (4 * p.state.code + 32 * maskOf [(portOf s 0).service, p.preferred, p.fence, p.aliveIn, p.linkUp, p.solo,
        p.renounced, p.failover, !p.arbitrations.isEmpty, p.joinConflict]
      + 2 ^ 16 * sat 5 p.divList.length + 2 ^ 21 * b2n p.divAll)
  | 0x00C => some (pair16 s.prl.unitId s.prl.peerId)
  | 0x018 => some s.prl.compared
  | 0x01C => some (pair16 s.prl.mismatches s.prl.skipped)
  | 0x028 => some (pair16 s.prl.crcFail s.prl.tagFail)
  | 0x02C => some s.prl.retx
  | 0x030 => some (s.prl.takeovers + 2 ^ 8 * s.prl.handbacks + 2 ^ 16 * s.prl.joins + 2 ^ 24 * s.prl.tailDiscards)
  | _ => none

/-- State of a region as `MEC_REGION` codes it. -/
def regionCode (s : State) (r : Nat) : Nat :=
  if s.variant.regions ≤ r then 7
  else if s.mec.sweeps.any fun w => w.region == r && w.rebuild then 3
  else if s.mec.sweeps.any (fun w => w.region == r) || (s.mec.masterRunning && s.mec.boundary == r) then 1
  else if (regionOf s r).poison.isEmpty then 0 else 2

/-- MEC (Table 17.10). -/
def liveMec (s : State) (off : Nat) : Option Nat :=
  let m := s.mec
  let r := fld s 0x000D001C 0 16
  match off with
  | 0x008 => some (4 * b2n m.masterRunning + 8 * m.sweeps.length
      + 64 * b2n (!m.rebuilds.isEmpty || m.sweeps.any (·.rebuild)) + 128 * b2n m.paused)
  | 0x010 => some (if m.masterRunning then sat 16 m.boundary else 0)
  | 0x014 => some (if m.master = [] then 0 else (now s - m.drawnAt) / tickS)
  | 0x018 => some <| match m.sweeps with
    | w :: _ => w.region + 2 ^ 16 * (Config.sweepLine (now s) % 16384) + 2 ^ 30
    | [] => 0
  | 0x020 => some (regionCode s r + 8 * b2n (m.masterRunning && decide (r < m.boundary)))
  | 0x02C => some (pair16 m.ce m.ue)
  | 0x030 => some (sat 16 m.regionRebuilds + 2 ^ 16 * sat 8 m.fullRebuilds)
  | 0x034 => some (sat 24 m.regionRekeys + 2 ^ 24 * sat 8 m.masterRekeys)
  | _ => none

/-- Unit and region that `APU_SEL` shows; none for an absent unit, or a region at or beyond its unit's count. -/
def ruleShown (s : State) : Option (Nat × Nat) :=
  let u := fld s 0x000E000C 0 7
  let r := fld s 0x000E000C 8 6
  if r < unitRegions u ∧ ¬(s.variant.cores ≤ u ∧ u < 64) then some (u, r) else none

/-- A rule as it reads, and what an unlisted entry reads as (Table 17.12). -/
def shownRule (s : State) : Rule :=
  let set := if rbit s 0x000E000C 14 then s.apu.active else s.apu.shadow
  match ruleShown s with
  | some k => (alGet set k).getD {}
  | none => { start := 0, end_ := 0, attr := 0 }

/-- START and END as they read: whole grains. -/
def shownEnds (s : State) : Nat × Nat :=
  let r := shownRule s
  (r.start / 32 * 32, if (ruleShown s).isSome then r.end_ / 32 * 32 + 31 else 0)

/-- APU (Table 17.12). -/
def liveApu (s : State) : Nat → Option Nat
  | 0x008 => some (4 * b2n s.apu.pending)
  | 0x028 => some s.apu.epoch
  | 0x02C => some (pair16 s.apu.faults s.apu.debugDenied)
  | 0x030 => some s.apu.last
  | _ => none

/-- BIN (Table 18.9). -/
def liveBin (s : State) (off : Nat) : Option Nat :=
  let b := s.bin
  match off with
  | 0x008 => some (4 * inForce s + 32 * b2n (evidenceFull s) + 64 * b2n b.firstPower + 128 * b2n b.rtcValid)
  | 0x00C => some (maskOf ((List.range 29).map fun n => (sourceOf s n).active))
  | 0x014 => some b.disabled
  | 0x020 => some (2 ^ 16 * maskOf ((List.range 8).map fun n => (sourceOf s n).active))
  | 0x024 => some b.meshFail
  | 0x028 => some (sat 12 b.vbat + 2 ^ 16 * (twos b.temp % 256))
  | 0x034 => some (b.pend.length + 2 ^ 16 * sat 16 b.overflow)
  | 0x038 => some (sat 12 b.used + 2 ^ 16 * s.variant.evidence)
  | 0x060 => some (pair16 b.evidenceLost b.queueLost)
  | _ => none

/-- `BIN_SRC` (Table 18.9). -/
def binSrc (s : State) : Nat :=
  let n := fld s 0x000F0018 0 5
  if 29 ≤ n then 0
  else confResp s n + 16 * floorResp n + 2 ^ 8 * effective s n + 2 ^ 16 * sat 16 (sourceOf s n).count

/-- LCF (Table 19.11). -/
def liveLcf (s : State) (off : Nat) : Option Nat :=
  let l := s.lcf
  match off with
  | 0x008 => some (4 * min 7 (lcState s).code + 32 * (lcWords s).getD 0 + 2 ^ 10 * b2n l.running
      + 2 ^ 11 * b2n l.owner.isSome)
  | 0x00C => some (l.stage + 16 * b2n l.holdWater + 2 ^ 16 * l.failure)
  | 0x010 => some <| match l.progress.getLast? with
    | some p => sat 5 l.progress.length + 2 ^ 8 * p.code + 2 ^ 12 * p.marks
    | none => 0
  | 0x014 => some (l.tokensUsed + 2 ^ 8 * l.badTokens)
  | 0x018 => some (sat 7 l.floor + 2 ^ 7 * b2n l.slotB)
  | 0x020 => some l.chalCnt
  | 0x024 => some s.serial.toNat
  | 0x028 => some (s.serial.toNat / 2 ^ 32)
  | 0x02C => some (s.serial.toNat / 2 ^ 64)
  | 0x030 => some (s.serial.toNat / 2 ^ 96)
  | _ => none

/-- LOG and TRB (Table 20.9). -/
def liveLog (s : State) (off : Nat) : Option Nat :=
  let l := s.log
  match off with
  | 0x008 => some (4 * b2n l.frozen.isSome + 16 * b2n l.wrapped)
  | 0x00C => some (pair16 l.wptr l.undrained)
  | 0x010 => some l.head
  | 0x014 => some (sat 16 l.missed + 2 ^ 16 * sat 8 l.side.length + 2 ^ 24 * sat 8 l.sideLost)
  | _ => none

/-- The counter that `TRB_SEL` selects (R773). -/
def troubleCount (s : State) : Nat :=
  let cause := fld s 0x00110800 16 6
  if rbit s 0x00110800 12 then (alGet s.log.trbMod cause).getD 0
  else if 31 < cause then 0 else (alGet s.log.trbInst (fld s 0x00110800 0 12, cause)).getD 0

/-- PWR (Table 20.11). -/
def livePwr (s : State) : Nat → Option Nat
  | 0x008 => some (4 * s.pwr.effective + 16 * s.pwr.committed.code + 64 * b2n s.pwr.forced
      + 128 * b2n s.pwr.pending.isSome + 256 * b2n s.pwr.limiting)
  | 0x00C => some (b2n s.pwr.committed.blind128 + 2 * s.pwr.committed.vas)
  | 0x018 => some (s.pwr.inputDw + 2 ^ 16 * capDw s.variant s.pwr.effective)
  | 0x024 => some s.pwr.limitEvents
  | _ => none

/-- Largest k of a policy; 1 where there is none yet (R410). -/
def largestK (l : List PolicyEntry) : Nat := l.foldl (fun n e => max n e.k) 1

/-- k of a class in a scope (R410 for class 10); 0 where the policy has no such entry. -/
def kOf (s : State) (scope cls : Nat) : Nat :=
  let pol := (alGet (cfgV s).policies scope).getD []
  if cls = 10 then largestK pol else ((pol.find? fun e => e.cls == cls).map (·.k)).getD 0

/-- The officer copy's digest matches the one in Binnacle (R422). -/
def copyOk (s : State) : Bool :=
  match s.qrm.copy, s.bin.officerDigest with
  | some (l, p), some d => sha3_256 (officerCopyBytes l p) == d
  | _, _ => false

/-- Failures of the last 600 s (R421). -/
def recentFails (s : State) : Nat := (s.qrm.fails.filter fun t => decide (now s < t + 600 * tickS)).length

/-- The latest ceremony of a scope and class. -/
def latestCer (s : State) (scope cls : Nat) : Option Ceremony :=
  (s.qrm.cers.filter fun c => c.scope == scope && c.cls == cls).getLast?

/-- State word of a ceremony (`QRM_CER_STATE`). -/
def cerWord (c : Ceremony) : Nat :=
  c.state.code + 2 ^ 8 * c.slots.length + 2 ^ 14 * c.accepted + 2 ^ 16 * c.k

/-- The ceremony that `QRM_CER_SEL` shows. -/
def shownCer (s : State) : Option Ceremony := latestCer s (fld s 0x0013001C 0 13) (fld s 0x0013001C 16 4)

/-- QRM (Table 9.17). -/
def liveQrm (s : State) : Nat → Option Nat
  | 0x008 => some (8 * b2n (copyOk s))
  | 0x014 => some (pair16 (recentFails s) s.qrm.total)
  | 0x018 =>
    let l := ((alGet (cfgV s).officers 0).getD [])
    some (maskOf ((List.range 32).map fun n => l.any fun o => o.slot == n))
  | 0x020 => some (match shownCer s with
      | some c => cerWord c
      | none => 2 ^ 16 * kOf s (fld s 0x0013001C 0 13) (fld s 0x0013001C 16 4))
  | 0x024 => some (((shownCer s).map (·.number)).getD 0)
  | _ => none

/-- Injector that `DRL_SEL` shows: 5 to 7, and 2 and 3 of the WX-7440 (R5), show none, which reads as a fresh one. -/
def shownInj (s : State) : Nat :=
  let i := fld s 0x0014000C 0 3
  if i < 5 ∧ ¬(s.variant.hostPorts ≤ i ∧ i < 4) then i else 5

/-- DRL (Table 20.10). -/
def liveDrl (s : State) : Nat → Option Nat
  | 0x008 => some (8 * maskOf ((List.range 5).map fun i => (injOf s i).permit.isSome)
      + 2 ^ 8 * maskOf ((List.range 5).map fun i => (injOf s i).armed))
  | 0x01C => some (injOf s (shownInj s)).injected
  | _ => none

/-- DBG (Table 19.13). -/
def liveDbg (s : State) : Nat → Option Nat
  | 0x008 => some (4 * debugLevel s + 32 * b2n s.lcf.challenge.isSome + 64 * b2n s.dbg.zeroized)
  | 0x00C => some (pair16 s.dbg.granted s.dbg.refused)
  | _ => none

/-- Bits of the fields that only hardware writes, where state gives them. -/
def liveBits (s : State) (addr : Nat) : Option Nat :=
  let (blk, u, off) := regPlace addr
  match blk with
  | 0 => liveMod s off | 1 => liveMer s off | 2 => liveDsp s off | 3 => liveIns s off | 4 => liveKsc s off
  | 5 => liveSym s .cipher u off | 6 => liveSym s .hash u off | 7 => liveSym s .check u off
  | 8 => liveBne s u off | 9 => liveLte s u off | 10 => liveRng s off | 11 => liveHpt s u off | 12 => livePrl s off
  | 13 => liveMec s off | 14 => liveApu s off | 15 => liveBin s off | 16 => liveLcf s off | 17 => liveLog s off
  | 18 => livePwr s off | 19 => liveQrm s off | 20 => liveDrl s off | 21 => liveDbg s off
  | _ => none

/-! ### Registers of more than one word -/

/-- Value of a 64-bit pair or words of a record, by the address of its first register; the words above the first are
latched (R760). `RNG_DATA_LO` is apart (R539). -/
def wideWords (s : State) (addr : Nat) : Option (List (BitVec 32)) :=
  let (blk, u, off) := regPlace addr
  let two := fun v : Nat => some (wordsOf v 2)
  match blk, off with
  | 1, 0x010 => two s.mer.t
  | 1, 0x030 => two s.mer.stepTicks
  | 1, 0x038 => two ((s.mer.gm.map (·.identity)).getD 0)
  | 2, 0x038 => some (wordsOf ((alGet s.dsp.trace (fld s 0x00020034 0 16)).getD 0) 4)
  | 4, 0x020 => two s.ksc.v
  | 4, 0x028 => two (if s.ksc.loaded then s.ksc.durable else 0)
  | 5, 0x010 => two (engineOf s .cipher u).ops
  | 6, 0x010 => two (engineOf s .hash u).ops
  | 7, 0x010 => two (engineOf s .check u).ops
  | 8, 0x018 => two (vget s.bne.engines u {}).ops
  | 9, 0x014 => two (vget s.lte.engines u {}).ops
  | 9, 0x020 => two (vget s.lte.engines u {}).signs
  | 9, 0x028 => two (vget s.lte.engines u {}).iters
  | 10, 0x020 => two s.rng.seeds
  | 11, 0x058 => two (portOf s u).tsRx
  | 11, 0x060 => two (portOf s u).tsTx
  | 12, 0x020 => two s.prl.peerDur
  | 13, 0x024 => two (regionOf s (fld s 0x000D001C 0 16)).gen
  | 14, 0x010 => two (shownEnds s).1
  | 14, 0x018 => two (shownEnds s).2
  | 15, 0x02C => two s.bin.rtc
  | 15, 0x040 =>
    let n := fld s 0x000F003C 0 11
    some (recordWords (if s.variant = .wx7440 then none
      else (s.bin.store.find? fun e => e.2 == n).map fun e => evidenceBytes e.1 n))
  | 17, 0x01C =>
    let i := fld s 0x00110018 0 24
    let r := if rbit s 0x00110018 24 then alGet s.log.nand i else alGet s.log.ring (i % ringSize)
    some (recordWords (r.map logBytes))
  | 18, 0x010 => two ((s.pwr.pending.map (·.2)).getD 0)
  | 18, 0x01C =>
    let on := fun d => s.pwr.domains.contains d && !s.pwr.goingUp.contains d
    two (maskOf ((List.range 64).map on))
  | 19, 0x028 => two (((shownCer s).map (·.close)).getD 0)
  | 20, 0x020 => two (((injOf s (shownInj s)).permit).getD 0)
  | _, _ => none

/-- Which latched word a `_HI` or `_Dn` register shows; 0 is the first above the low word. -/
def latchIndex (blk off : Nat) : Nat :=
  if blk = 2 ∧ 0x03C ≤ off then (off - 0x03C) / 4
  else if blk = 15 ∧ 0x044 ≤ off then (off - 0x044) / 4
  else if blk = 17 ∧ 0x020 ≤ off then (off - 0x020) / 4 else 0

/-- First address of a block, which names its shadow. -/
def blockBase (addr : Nat) : Nat := addr / 0x10000 * 0x10000

/-! ### Reading -/

/-- Fields of an access code. -/
def RegDef.has (r : RegDef) (a : Acc) : Bool := r.fields.any fun f => f.acc == a

/-- Bits of a register in the fields that `p` picks. -/
def RegDef.mask (r : RegDef) (p : FieldDef → Bool) : BitVec 32 :=
  BitVec.ofNat 32 ((r.fields.filter p).foldl (fun n f => n + (2 ^ (f.hi + 1) - 2 ^ f.lo)) 0)

/-- Fields that hold what was written to them. -/
def FieldDef.soft (f : FieldDef) : Bool :=
  match f.acc with
  | .rw | .rwe | .w1c | .wl => true
  | _ => false

/-- Registers whose software fields are kept elsewhere than in `regs`: the shown rule, VLAN entry, source, injector and
trouble counter. -/
def indexed (s : State) (addr : Nat) : Option (BitVec 32) :=
  let (blk, u, off) := regPlace addr
  match blk, off with
  | 11, 0x018 => some (BitVec.ofNat 32 (vget (portOf s u).vlan (fld s (winBase 11 u + 0x014) 0 3) 0))
  | 14, 0x020 => some (BitVec.ofNat 32 (shownRule s).attr)
  | 15, 0x01C => some (BitVec.ofNat 32 (binSrc s))
  | 17, 0x804 => some (BitVec.ofNat 32 (troubleCount s))
  | 20, 0x010 | 20, 0x014 | 20, 0x018 => some (if 5 ≤ shownInj s then 0 else drlReg s (shownInj s) off)
  | _, _ => none

/-- Value of a register of one word: its software fields as stored, its hardware fields as the state gives them. -/
def plainValue (s : State) (addr : Nat) (r : RegDef) : BitVec 32 :=
  match indexed s addr with
  | some v => v
  | none =>
    let soft := r.mask (·.soft)
    match liveBits s addr with
    | some v => (stored s addr &&& soft) ||| (BitVec.ofNat 32 v &&& ~~~soft)
    | none => stored s addr &&& ~~~(r.mask (·.acc == .wo))

/-- A read of a register (R5, R539, R760, R762): its value, and the state with what the read latches or consumes. -/
def readReg (s : State) (addr : Nat) : BitVec 32 × State :=
  let (blk, u, off) := regPlace addr
  let latch := fun (s : State) (l : List (BitVec 32)) => { s with shadows := alSet s.shadows (blockBase addr) l }
  if unitPresent s.variant blk u = false then (0, s)
  else match regDef addr with
    | none => (0, s)
    | some r =>
      if addr = 0x000A002C then
        let (v, hi, s) := readData s
        (v, latch s [hi])
      else if r.has .rs || (blk == 14 && (off == 0x014 || off == 0x01C)) then
        (((alGet s.shadows (blockBase addr)).getD []).getD (latchIndex blk off) 0, s)
      else match wideWords s addr with
        | some (v :: rest) => (v, latch s rest)
        | _ => (plainValue s addr r, s)

end Sys2Proof.Machine
end

