-- ==== Sys2Proof/Machine/RegWrite.lean ====
section
/-! DEFINITION. Writes to control space (R760 to R765, R774) with what each register does when it is written, and the rows
that read and write registers: `CSRR`, `CSRW`, the conventions of chapter 20, and the debug port (R690). -/

namespace Sys2Proof.Machine

/-! ### Clearable counters (R774) -/

/-- A value that is kept unless it is cleared. -/
def keep (clear : Bool) (n : Nat) : Nat := if clear then 0 else n

/-- Counters of a register that "is cleared as for trouble counters": each field written zero is cleared; none where the
register is no such one. -/
def clearFields (s : State) (addr : Nat) (v : BitVec 32) : Option State :=
  let (blk, u, off) := regPlace addr
  let z := fun lo n : Nat => decide (v.toNat / 2 ^ lo % 2 ^ n = 0)
  let a := z 0 16
  let b := z 16 16
  let w := z 0 32
  let port := fun f : Port → Port => some { s with net := { s.net with ports := vset s.net.ports u (f (portOf s u)) } }
  let sym := fun (k : SymKind) => match off with
    | 0x018 => some (setEngine s k u { engineOf s k u with checkFail := keep w (engineOf s k u).checkFail })
    | 0x01C => some (setEngine s k u { engineOf s k u with
        faults := keep a (engineOf s k u).faults, yields := keep b (engineOf s k u).yields })
    | _ => none
  match blk, off with
  | 5, _ => sym .cipher
  | 6, _ => sym .hash
  | 7, 0x01C => sym .check
  | 8, 0x020 => some (modBne s u fun e => { e with generic := keep a e.generic, invariant := keep b e.invariant })
  | 8, 0x024 => some (modBne s u fun e => { e with faults := keep a e.faults, aborts := keep b e.aborts })
  | 9, 0x01C => some (modLte s u fun e => { e with hits := keep a e.hits, misses := keep b e.misses })
  | 9, 0x034 => some (modLte s u fun e => { e with generic := keep a e.generic, invariant := keep b e.invariant })
  | 9, 0x038 => some (modLte s u fun e => { e with faults := keep a e.faults, aborts := keep b e.aborts })
  | 10, 0x01C => some { s with rng := { s.rng with rctFails := keep a s.rng.rctFails, aptFails := keep b s.rng.aptFails } }
  | 11, 0x048 => port fun p => { p with dropLink := keep a p.dropLink, dropWsp := keep b p.dropWsp }
  | 11, 0x04C => port fun p => { p with aeadFail := keep w p.aeadFail }
  | 11, 0x050 => port fun p => { p with helloOk := keep a p.helloOk, helloDrop := keep b p.helloDrop }
  | 11, 0x054 => port fun p => { p with beaconOk := keep a p.beaconOk, beaconDrop := keep b p.beaconDrop }
  | 11, 0x070 => port fun p => { p with dups := keep a p.dups, beyond := keep b p.beyond }
  | 11, 0x074 => port fun p => { p with retx := keep w p.retx }
  | 11, 0x078 => port fun p => { p with replayed := keep a p.replayed, idConflict := keep b p.idConflict }
  | 11, 0x07C => port fun p => { p with closesTimeout := keep a p.closesTimeout, closesError := keep b p.closesError }
  | 11, 0x080 => port fun p => { p with resyncs := keep a p.resyncs, resyncDrop := keep b p.resyncDrop }
  | 11, 0x084 => some { s with net := { s.net with lostReplies := keep (z 21 10) s.net.lostReplies } }
  | 12, 0x018 => some { s with prl := { s.prl with compared := keep w s.prl.compared } }
  | 12, 0x01C => some { s with prl := { s.prl with mismatches := keep a s.prl.mismatches, skipped := keep b s.prl.skipped } }
  | 12, 0x028 => some { s with prl := { s.prl with crcFail := keep a s.prl.crcFail, tagFail := keep b s.prl.tagFail } }
  | 12, 0x02C => some { s with prl := { s.prl with retx := keep w s.prl.retx } }
  | 12, 0x030 => some { s with prl := { s.prl with
      takeovers := keep (z 0 8) s.prl.takeovers, handbacks := keep (z 8 8) s.prl.handbacks
      joins := keep (z 16 8) s.prl.joins, tailDiscards := keep (z 24 8) s.prl.tailDiscards } }
  | 13, 0x02C => some { s with mec := { s.mec with ce := keep a s.mec.ce, ue := keep b s.mec.ue } }
  | 13, 0x030 => some { s with mec := { s.mec with
      regionRebuilds := keep a s.mec.regionRebuilds, fullRebuilds := keep (z 16 8) s.mec.fullRebuilds } }
  | 13, 0x034 => some { s with mec := { s.mec with
      regionRekeys := keep (z 0 24) s.mec.regionRekeys, masterRekeys := keep (z 24 8) s.mec.masterRekeys } }
  | 14, 0x02C => some { s with apu := { s.apu with faults := keep a s.apu.faults, debugDenied := keep b s.apu.debugDenied } }
  | 17, 0x804 => some (if w then clearTrouble s else s)
  | 18, 0x024 => some { s with pwr := { s.pwr with limitEvents := keep w s.pwr.limitEvents } }
  | 20, 0x01C => some (if shownInj s < 5 then modInj s (shownInj s) fun x => { x with injected := keep w x.injected } else s)
  | _, _ => none

/-! ### The access codes -/

/-- Register that holds a block's flags: at offset 8 of each window; TRB shares those of LOG. -/
def statusAddr (addr : Nat) : Nat :=
  let (blk, u, _) := regPlace addr
  winBase blk u + 8

/-- A locked field is written (R764). -/
def lockViolation (s : State) (addr : Nat) : State :=
  logEvent (troubleMod (setBit s (statusAddr addr) 1) 41) 0x0001 (addr / 0x10000) 2 [addr]

/-- A differing value meets an RWE field while `en` is 1 (R763). -/
def configViolation (s : State) (addr : Nat) : State := troubleMod (setBit s (statusAddr addr) 0) 40

/-- The block's `en` gates its RWE fields. -/
def gated (s : State) (addr : Nat) : Bool :=
  let (blk, u, _) := regPlace addr
  blockEn s blk u

/-- Bits that a write takes over from `old` to `v`: RW, RWE unless gated, WL not yet written (R763, R764); bits written 1 in
a W1C field are cleared (R765). -/
def mergeWrite (r : RegDef) (old v : BitVec 32) (gate : Bool) (openWl : FieldDef → Bool) : BitVec 32 :=
  let take := r.mask fun f => f.acc == .rw || (f.acc == .rwe && !gate) || (f.acc == .wl && openWl f)
  ((old &&& ~~~take) ||| (v &&& take)) &&& ~~~(v &&& r.mask (·.acc == .w1c))

/-- Flags of a write to a register with RWE fields (R763), given what those fields hold. -/
def checkRwe (s : State) (addr : Nat) (r : RegDef) (old v : BitVec 32) : State :=
  let m := r.mask (·.acc == .rwe)
  if gated s addr = true ∧ (old &&& m) ≠ (v &&& m) then configViolation s addr else s

/-- A write to a register whose bits `regs` holds. -/
def plainWrite (s : State) (addr : Nat) (r : RegDef) (v : BitVec 32) : State :=
  let old := stored s addr
  let openWl := fun f : FieldDef => !s.locked.contains (addr, f.lo)
  let wl := r.fields.filter fun f => f.acc == .wl
  let new := mergeWrite r old v (gated s addr) openWl
  let viol := wl.any fun f => !openWl f
  let t := checkRwe s addr r old v
  let t := store { t with locked := t.locked ++ (wl.filter openWl).map fun f => (addr, f.lo) } addr new
  if viol then lockViolation t addr else t

/-! ### Registers that act -/

/-- A write to a region register's value (R686, R688, R689): `f` changes the shadow rule that `APU_SEL` names. -/
def ruleWrite (s : State) (f : Rule → Rule) : State :=
  if s.apu.pending then setBit s 0x000E0008 4
  else match ruleShown s with
    | some k =>
      let r := f ((alGet s.apu.shadow k).getD {})
      { s with apu := { s.apu with shadow := if r = {} then alDel s.apu.shadow k else alSet s.apu.shadow k r } }
    | none => s

/-- High words are staged and low words commit (R761): the 64-bit value written to the pair at `lo`. -/
def stagedValue (s : State) (lo : Nat) (v : BitVec 32) : Nat :=
  (((alGet s.stages lo).getD 0).toNat % 256) * 2 ^ 32 + v.toNat

/-- A write to a region register (R761, R686 to R689). DEDUCED (log 117): with `APU_SEL` on a unit that the variant lacks, the
write is ignored whole, its staging and its status bits too (R5). -/
def regionWrite (s : State) (off : Nat) (v : BitVec 32) : State :=
  let addr := 0x000E0000 + off
  if ruleShown s = none then s
  else if rbit s 0x000E0004 1 then lockViolation s addr
  else match off with
    | 0x014 | 0x01C => { s with stages := alSet s.stages (addr - 4) v }
    | 0x010 => ruleWrite s fun r => { r with start := stagedValue s addr v / 32 * 32 }
    | 0x018 => ruleWrite s fun r => { r with end_ := stagedValue s addr v / 32 * 32 + 31 }
    | _ => ruleWrite s fun r => { r with attr := v.toNat % 2 ^ 21 }

/-- LCF_SRC_DISABLE is written (R706, R747). -/
def srcDisable (s : State) (mask : BitVec 32) : State :=
  match lcState s with
  | .raw | .testUnlocked | .provisioning =>
    { s with bin := { s.bin with disabled := s.bin.disabled ||| mask.toNat % 2 ^ 29 } }
  | _ => lockViolation s 0x0010001C

/-- `BIN_SRC` is written: the configured response of the source that `BIN_SRC_SEL` names (R705). -/
def srcRespWrite (s : State) (r : RegDef) (v : BitVec 32) : State :=
  let n := fld s 0x000F0018 0 5
  if 29 ≤ n then s
  else
    let t := checkRwe s 0x000F001C r (BitVec.ofNat 32 (binSrc s)) v
    if blockEn s 15 0 then t
    else { t with bin := { t.bin with resp := vset t.bin.resp n (some (v.toNat % 8)) } }

/-- `MER_ADRIFT_LIMIT` is written: a value outside its range is clamped (R80). -/
def adriftWrite (s : State) (addr : Nat) (r : RegDef) (v : BitVec 32) : State :=
  let t := plainWrite s addr r v
  store t addr (BitVec.ofNat 32 (clamp 10000 1000000000 (stored t addr).toNat))

/-- `HPT_VLAN` is written: the entry that `HPT_VLAN_SEL` names. -/
def vlanWrite (s : State) (u : Nat) (r : RegDef) (v : BitVec 32) : State :=
  let i := fld s (winBase 11 u + 0x014) 0 3
  let p := portOf s u
  let old := vget p.vlan i 0
  let t := checkRwe s (winBase 11 u + 0x018) r (BitVec.ofNat 32 old) v
  if blockEn s 11 u then t
  else
    let p := portOf t u
    let l := vset p.vlan i (v.toNat % 2 ^ 16)
    { t with net := { t.net with ports := vset t.net.ports u { p with vlan := l }, vlanRecord := vset t.net.vlanRecord u l } }

/-- A register of the shown injector is written (R777, R778, R780). -/
def drillWrite (s : State) (off : Nat) (r : RegDef) (v : BitVec 32) : State :=
  let i := shownInj s
  if 5 ≤ i then s
  else
    let addr := 0x00140000 + off
    let old := drlReg s i off
    let t := checkRwe s addr r old v
    let new := mergeWrite r old v (gated s addr) fun _ => true
    let set := fun (t : State) (w : BitVec 32) => { t with regs := alSet t.regs (drlAddr i off) w }
    if off = 0x010 then
      let t := set t (insertBits new 0 1 (b2n (injOf s i).armed))
      if v.getLsbD 0 then armInjector t i else if (injOf s i).armed then stopInjector t i else t
    else set t new

/-- `INS_CMD` is written (R345, R347): instance and command. -/
def insCmdWrite (s : State) (v : BitVec 32) : State :=
  let i := v.toNat % 4096
  match v.toNat / 4096 % 16 with
  | 1 => insCommand s i .reset
  | 2 => insCommand s i .clear
  | _ => setBit s 0x00030008 2

/-- What a register does once its fields have taken a write. -/
def afterWrite (s : State) (addr : Nat) (v : BitVec 32) (was : State) : State :=
  let (blk, u, off) := regPlace addr
  match blk, off with
  | 2, 0x004 => if v.getLsbD 3 then clearTrace s else s
  | 3, 0x00C => insCmdWrite s v
  | 5, 0x004 => if v.getLsbD 1 then katRun s .cipher u else s
  | 6, 0x004 => if v.getLsbD 1 then katRun s .hash u else s
  | 7, 0x004 => if v.getLsbD 1 then katRun s .check u else s
  | 8, 0x004 => if v.getLsbD 1 then bneKat s u else s
  | 9, 0x004 =>
    let s := if v.getLsbD 1 then lteKat s u else s
    if v.getLsbD 2 then flushCache s u else s
  | 11, _ => noteRecord s u off
  | 10, 0x004 => if blockEn s 10 0 = true ∧ blockEn was 10 0 = false then startSources s else s
  | 12, 0x004 => if v.getLsbD 1 then yieldRequest s else s
  | 13, 0x00C => if v.getLsbD 0 then masterRequest s else s
  | 14, 0x024 => if v.getLsbD 0 then apuCommitRequest s else s
  | 17, 0x004 => if v.getLsbD 1 then freezeLog s else thawLog s
  | 21, 0x004 => if v.getLsbD 1 then relock s else s
  | _, _ => s

/-- A write to a register (R5, R15, R761 to R765, R774). -/
def writeReg (s : State) (addr : Nat) (v : BitVec 32) : State :=
  let (blk, u, off) := regPlace addr
  if unitPresent s.variant blk u = false then s
  else match regDef addr with
    | none => s
    | some r =>
      match clearFields s addr v with
      | some t => t
      | none => match blk, off with
        | 11, 0x018 => vlanWrite s u r v
        | 1, 0x01C => adriftWrite s addr r v
        | 14, 0x010 | 14, 0x014 | 14, 0x018 | 14, 0x01C | 14, 0x020 => regionWrite s off v
        | 15, 0x01C => srcRespWrite s r v
        | 16, 0x01C => srcDisable s v
        | 20, 0x010 | 20, 0x014 | 20, 0x018 => drillWrite s off r v
        | 17, 0x004 =>
          afterWrite (store s addr (insertBits (stored s addr) 0 1 (v.toNat % 2))) addr v s
        | _, _ => afterWrite (plainWrite s addr r v) addr v s

end Sys2Proof.Machine
end

