-- ==== Sys2Proof/Machine/RegRows.lean ====
section
/-! DEFINITION. The rows that reach control space: `CSRR` and `CSRW` (R198 to R200), the register conventions (R539, R760 to
R764, R774), the source-disable fuses (R747) and the debug port (R690, R691, R749). -/

namespace Sys2Proof.Machine

/-! ### `CSRR` and `CSRW` -/

/-- A core's access to control space. -/
def csrAccess (c : CoreId) (x : Item) (store : Bool) : Access :=
  { init := c.val, target := 98, priv := x.priv, dom := x.imageDom, kind := if store then .write else .read }

/-- Cycles beyond the first (Table 4.12). -/
def csrCycles (s : State) : Nat := min 3000 (Config.csrStall (now s))

/-- The checks of R137, R199, R654 and R683; then `act` on the address. -/
def withCsr (s : State) (c : CoreId) (x : Item) (a : Word) (store : Bool) (act : Nat → Effect) : Effect :=
  let n := a.toNat
  if x.priv = false then .fault s St.illegalInstr
  else if n % 4 ≠ 0 ∨ 2 ^ 32 ≤ n ∨ targetOf s.variant n ≠ some 98 then .fault s St.accessFault
  else match apuRefuses s (csrAccess c x store) n 4 with
    | some w => .fault (apuRefused s (csrAccess c x store) w) St.accessFault
    | none => act n

/-- CSRR (R198 to R200). -/
def execCsrr (i : Issue) (d a : GReg) (s : State) : Host.Outcome State Fault Refusal :=
  .next <| runOp i (.svc .csrr d a 0) s fun s x _ =>
    let c := i.core
    withCsr s c x (rd s c a) false fun n =>
      let (v, t) := readReg s n
      .next { s := setLast (wr t c d (v.setWidth 64)) c 0, extra := csrCycles s }

/-- CSRW (R198 to R200). -/
def execCsrw (i : Issue) (a b : GReg) (s : State) : Host.Outcome State Fault Refusal :=
  .next <| runOp i (.svc .csrw 0 a b) s fun s x _ =>
    let c := i.core
    withCsr s c x (rd s c a) true fun n =>
      .next { s := setLast (writeReg s n ((rd s c b).setWidth 32)) c 0, extra := csrCycles s }

/-! ### Other initiators -/

/-- Access of an initiator to a register (R682, R753). -/
def iniAccess (ini : Initiator) (store : Bool) : Access :=
  { init := match ini with | .core c => c.val | .cox => 64 | .debug => 72
    target := 98, priv := true, dom := 0, kind := if store then .write else .read }

/-- The initiator may make register accesses at all (R137, R749, R753): a core that runs a privileged program, Cox, and the
debug port at level 2 or in a factory state; at level 1 it reads DBG and the Log. -/
def iniAble (s : State) (ini : Initiator) (addr : Nat) (store : Bool) : Bool :=
  match ini with
  | .core c => match (s.core c).item with
    | some x => x.priv
    | none => false
  | .cox => s.pwr.mainPower
  | .debug => decide (2 ≤ debugLevel s) || (debugLevel s == 1 && !store && [17, 21].contains (addr / 0x10000))

/-- A register access of an initiator: refused by a protection unit, it changes only the counts (R684). -/
def withAccess (s : State) (ini : Initiator) (addr : Nat) (store : Bool) (act : State) : State :=
  if iniAble s ini addr store = false ∨ addr % 4 ≠ 0 ∨ targetOf s.variant addr ≠ some 98 then s
  else if ini = .debug ∧ debugLevel s = 1 then act
  else match apuRefuses s (iniAccess ini store) addr 4 with
    | some w => apuRefused s (iniAccess ini store) w
    | none => act

/-- A read, and what the initiator receives. -/
def readOut (s : State) (addr : Nat) : State :=
  let (v, t) := readReg s addr
  emit t (.regRead addr v)

/-- RNG_DATA_LO_READ (R539, R540). -/
def execRngDataLoRead (ini : Initiator) (s : State) : Host.Outcome State Fault Refusal :=
  .next (withAccess s ini 0x000A002C false (readOut s 0x000A002C))

/-- Registers that latch when they are read (R760). -/
def latches (s : State) (addr : Nat) : Bool :=
  addr != 0x000A002C && (wideWords s addr).isSome

/-- LO_READ_LATCH (R760). -/
def execLoReadLatch (ini : Initiator) (addr : Nat) (s : State) : Host.Outcome State Fault Refusal :=
  .next (if latches s addr then withAccess s ini addr false (readOut s addr) else s)

/-- Low words of the writable pairs (R761). -/
def pairLows : List Nat := [0x000E0010, 0x000E0018]

/-- HI_WRITE_STAGE (R761). -/
def execHiWriteStage (ini : Initiator) (addr : Nat) (v : BitVec 32) (s : State) : Host.Outcome State Fault Refusal :=
  .next (if pairLows.any (· + 4 == addr) then withAccess s ini addr true (writeReg s addr v) else s)

/-- LO_WRITE_COMMIT (R761). -/
def execLoWriteCommit (ini : Initiator) (addr : Nat) (v : BitVec 32) (s : State) : Host.Outcome State Fault Refusal :=
  .next (if pairLows.contains addr then withAccess s ini addr true (writeReg s addr v) else s)

/-- REGISTER_WRITE (R762 to R765). -/
def execRegisterWrite (ini : Initiator) (addr : Nat) (v : BitVec 32) (s : State) : Host.Outcome State Fault Refusal :=
  .next (withAccess s ini addr true (writeReg s addr v))

/-- COUNTER_CLEAR (R540, R774): a register write of zero by an initiator. -/
def execCounterClear (r : ClearAt) (s : State) : Host.Outcome State Fault Refusal :=
  .next <|
    let (blk, u, _) := regPlace r.addr
    withAccess s r.ini r.addr true (if unitPresent s.variant blk u then (clearFields s r.addr 0).getD s else s)

/-- LCF_SRC_DISABLE (R747). -/
def execLcfSrcDisable (ini : Initiator) (mask : BitVec 32) (s : State) : Host.Outcome State Fault Refusal :=
  .next (withAccess s ini 0x0010001C true (srcDisable s mask))

/-! ### The debug port -/

/-- Ranges that the debug port is locked out of (R690): LDM, the key cache, the KS area, crew scratch. -/
def debugLocked (v : Variant) (a : Nat) : Bool :=
  decide (scrBase 0 ≤ a ∧ a < 0x1000000000) ||
    decide (0x1000000000 ≤ a ∧ a < 0x1000000000 + v.regions * 0x100000 * 34 / 52)

/-- A locked access (R690). -/
def debugDeny (s : State) (a : Nat) : State :=
  let s := logOpen (setBit { s with apu := { s.apu with debugDenied := satInc 65535 s.apu.debugDenied } } 0x00150008 4) 0x15 0 [a]
  if lcState s = .deployed then alarmEvent s 25 (a / 2 ^ 8 % 2 ^ 32) else s

/-- Bytes that the debug port reads: crew scratch, LDM, a register, DRAM (R661); those of the key cache array, whose layout the
spec does not give, are free (log 9, log 13). -/
def debugRead (s : State) (a n : Nat) : List Byte × State :=
  if a < 0x160000 then
    let (v, s) := readReg s (a / 4 * 4)
    (slice (leBytes 4 v.toNat ++ zeros 4) (a % 4) n, s)
  else if a < 0x0110000000 then
    let o := a - 0x0100000000
    (Mem.read (vget s.scratch (o / 0x100000) []) (o % 0x100000) n, s)
  else if a < 0x0120000000 then
    let o := a - 0x0110000000
    (match s.cores[o / 0x10000]? with | some c => Mem.read c.ldm (o % 0x10000) n | none => zeros n, s)
  else if a < 0x1000000000 then draw s n
  else dramRead s a n

/-- A debug write; one to the key cache array has no place in the model (log 9). -/
def debugWrite (s : State) (a : Nat) (bs : List Byte) : State :=
  if a < 0x160000 then
    if a % 4 = 0 ∧ bs.length = 4 then writeReg s a (BitVec.ofNat 32 (leNat bs)) else s
  else if a < 0x0110000000 then
    let o := a - 0x0100000000
    { s with scratch := vset s.scratch (o / 0x100000) (Mem.write (vget s.scratch (o / 0x100000) []) (o % 0x100000) bs) }
  else if a < 0x0120000000 then
    let o := a - 0x0110000000
    match (List.finRange 64)[o / 0x10000]? with
    | some c => s.setCore c { s.core c with ldm := Mem.write (s.core c).ldm (o % 0x10000) bs }
    | none => s
  else if a < 0x1000000000 then s
  else dramWrite s a bs

/-- A debug read meets a poisoned line, whose region is not SS being rebuilt, which its twin serves (R670, R672). -/
def debugPoison (s : State) (a n : Nat) : Bool :=
  decide (0x1000000000 ≤ a) && (linesOf a n).any fun l =>
    let r := regionOfLine l
    linePoisoned s l && !((twinOf s.variant r).isSome && s.mec.sweeps.any fun w => w.region == r && w.rebuild)

/-- What the debug port reads; where a line is poisoned it gets no data, and the error that poisoned the line has been dealt
with (R670, log 118). -/
def debugGive (s : State) (a n : Nat) : State :=
  if debugPoison s a n then s
  else
    let (b, s) := debugRead s a n
    if debugPoison s a n then s else emit s (.debug b)

/-- Bytes from `a` that one memory of Table 17.1 holds: a register, a crew's scratch, a core's LDM, the key cache array or
DRAM. -/
def debugUnit (a : Nat) : Nat :=
  if a < 0x160000 then 4 else if a < 0x0110000000 then 0x100000 else if a < 0x0120000000 then 0x10000 else 0x1000000000

/-- The access lies in one such memory, at addresses of Table 17.1. -/
def debugFits (v : Variant) (a n : Nat) : Bool :=
  (targetOf v a).isSome && targetOf v (a + n - 1) == targetOf v a && a / debugUnit a == (a + n - 1) / debugUnit a

/-- DEBUG_ACCESS (R680, R690, R691, R749): the grant, the locked ranges, then protection unit 72. -/
def execDebugAccess (addr len : Nat) (write : Bool) (data : List Byte) (s : State) : Host.Outcome State Fault Refusal :=
  .next <|
    let x : Access := { init := 72, target := (targetOf s.variant addr).getD 0, priv := true, dom := 0, kind := if write then .write else .read }
    let dbgReg := !write && [17, 21].contains (addr / 0x10000) && decide (addr / 4 = (addr + len - 1) / 4)
    if len = 0 ∨ (write = true ∧ data.length ≠ len) then s
    else if debugLevel s = 0 then s
    else if debugLevel s = 1 then if dbgReg then debugGive s addr len else s
    else if debugFits s.variant addr len = false ∨ (0x1000000000 ≤ addr ∧ blockEn s 13 0 = false) then s
    else if (lcState s).factory = false ∧ debugLocked s.variant addr = true then
      let s := debugDeny s addr
      if write then s else emit s (.debug (zeros len))
    else match apuRefuses s x addr len with
      | some w => apuRefused s x w
      | none => if write then debugWrite s addr data else debugGive s addr len

end Sys2Proof.Machine
end

