-- ==== Sys2Proof/Machine/TimeStep.lean ====
section
/-! DEFINITION. A forward step of T and what it brings with it (R90 to R98): buckets of the delay list, actions scheduled for a
whole second, and approvals whose window has passed; and the command that applies a pending step. -/

namespace Sys2Proof.Machine

/-- A ceremony that is OPEN, or an authorisation that no `JPUT` holds, lapses at its closing time (R419). -/
def Ceremony.lapse (c : Ceremony) (t : Nat) : Ceremony :=
  if c.close ≤ t ∧ (c.state = .open ∨ (c.state = .complete ∧ c.reservedBy = none)) then
    { c.ended .lapsed with output := [] }
  else c

/-- Every ceremony whose window T has passed lapses (R97). -/
def lapsePassed (s : State) : State :=
  { s with qrm := { s.qrm with cers := s.qrm.cers.map fun c => c.lapse s.mer.t } }

/-- T steps forward by `n` ticks, with all that R94, R96, R97 and R300 attach to a step. -/
def stepForward (s : State) (n : Nat) (cer : Bool) : State :=
  handbackDue (switchProfile (lapsePassed (moveBuckets (stepBy s n cer))))

/-- FORWARD_STEP (R90, R93): the tick at which a pending step of at most 1 s is applied. While the servo is off T runs free
(R84). -/
def execForwardStep (s : State) : Host.Outcome State Fault Refusal :=
  .next <| match s.mer.pendingStep with
  | some n => if servoOn s then stepForward s n false else s
  | none => s

/-- A class 8 ceremony at completion (R86, R92, R810): byte 0 of its body and the time it names. With the servo off nothing is
measured and T runs free (R84): the step is refused (log 97). -/
def stepCeremony (s : State) (number kind named : Nat) : Bool × State :=
  if servoOn s = false then (false, stepRefused s number kind)
  else if kind = 1 then
    if s.mer.stepPending = true ∧ s.mer.stepTicks ≤ named + 16000 ∧ named ≤ s.mer.stepTicks + 16000 then
      (true, stepForward s s.mer.stepTicks true)
    else (false, stepRefused s number kind)
  else if s.mer.acqConflict then (true, updateClock (initialSetTo s named))
  else (false, stepRefused s number kind)

end Sys2Proof.Machine
end

