-- ==== Sys2Proof/Machine/Ceremony.lean ====
section
/-! DEFINITION. Ceremonies (chapter 09): what may be opened and who may approve (R405 to R414, R618, R619, R740, R779, R782,
R810), how a ceremony ends, and key entry by components or by generation (R423 to R426). -/

namespace Sys2Proof.Machine

/-! ### Officers and policies -/

/-- Officer set in force for ceremonies: of the copy in Hold-Water (R422). -/
def officersOf (s : State) (scope : Nat) : List Officer :=
  if s.lcf.holdWater then (if scope = 0 ∧ copyOk s = true then ((s.qrm.copy.map (·.1)).getD []) else [])
  else (alGet (cfgV s).officers scope).getD []

/-- Policy in force for ceremonies. -/
def policiesOf (s : State) (scope : Nat) : List PolicyEntry :=
  if s.lcf.holdWater then (if scope = 0 ∧ copyOk s = true then ((s.qrm.copy.map (·.2)).getD []) else [])
  else (alGet (cfgV s).policies scope).getD []

/-- Policy entry of a class; a missing one has no member. -/
def entryOf (s : State) (scope cls : Nat) : PolicyEntry :=
  ((policiesOf s scope).find? fun e => e.cls == cls).getD { cls := cls, k := 1, mask := 0 }

/-- k and member mask of a ceremony (R408, R410, R411). -/
def ruleOf (s : State) (scope cls : Nat) (body : List Byte) : Nat × Nat :=
  if cls = 10 then
    match parseRec body with
    | some (.usage _ _) => let e := entryOf s scope 4; (e.k, e.mask)
    | _ => (largestK (policiesOf s scope), 2 ^ 32 - 1)
  else let e := entryOf s scope cls; (e.k, e.mask)

/-! ### Bodies -/

/-- The transition of a class 1 ceremony between two state codes (Table 19.7). -/
def cerTransition (cur tgt : Nat) : Option Nat :=
  if cur = 3 ∧ tgt = 4 then some 5 else if (cur = 3 ∨ cur = 4) ∧ tgt = 5 then some 6
  else if cur ≤ 5 ∧ tgt = 6 then some 7 else none

/-- Layout of the bodies of classes 1, 4, 5, 8 and 9: length, reserved bytes, domain ID (R14, R28, R756). What else a body
breaks, and every breach in another class, is a matter of its parameters. -/
def bodyForm (cls : Nat) (b : List Byte) : Bool :=
  match cls with
  | 1 => b.length == 32 && rsvdOk b 2 6 && rsvdOk b 24 8
  | 4 => b.length == 128 && rsvdOk b 2 6 && rsvdOk b 112 16
  | 5 => b.length == 136 && rsvdOk b 4 4 && decide (fieldAt b 2 2 ≤ 4096)
  | 8 => b.length == 16 && rsvdOk b 1 7
  | 9 => b.length == 80 && rsvdOk b 1 1 && rsvdOk b 10 6
  | _ => true

/-- Class 1 (R739, R740). -/
def body1Ok (s : State) (b : List Byte) : Bool :=
  slice b 8 16 == leBytes 16 s.serial.toNat && fieldAt b 1 1 == (lcState s).code
    && (cerTransition (fieldAt b 1 1) (fieldAt b 0 1)).isSome && mayTransit s

/-- Classes 2, 3 and 10: one record of the class and scope. -/
def bodyRecOk (scope cls : Nat) (b : List Byte) : Bool :=
  match parseRec b with
  | some r => quorumOf r == some (cls, scope)
  | none => false

/-- Kind and key IDs of a key-entry body (Table 9.6). -/
def keKind (b : List Byte) : Nat := fieldAt b 0 1
def keKey (b : List Byte) : Nat := fieldAt b 8 8
def keOther (b : List Byte) : Nat := fieldAt b 56 8

/-- Descriptor of a key-entry body: the key carries the dual-control flag and is stored (R423). -/
def keAttrs (b : List Byte) : Option Attrs :=
  (parseAttrs (slice b 16 32)).map fun a => { a with dual := true, persist := true }

/-- Class 4: kind and the fields it uses agree (R423, R424, R229). -/
def body4Ok (scope : Nat) (b : List Byte) : Bool :=
  let k := keKind b
  let c := fieldAt b 1 1
  let named := k == 3 || k == 4 || k == 6
  let described := k == 1 || k == 2 || k == 4 || k == 5
  let other := k == 5 || k == 6
  decide (1 ≤ k ∧ k ≤ 6) && (if k = 1 then c == 2 || c == 3 else c == 0)
    && (if named then (nameOfId (keKey b)).dom == scope && keKey b != 0 else keKey b == 0)
    && (if described then (match keAttrs b with
        | some a => (k != 1 || symmetricAlg a.alg) && (k != 2 || !decide (0x18 ≤ a.alg ∧ a.alg ≤ 0x1A))
        | none => false) else rsvdOk b 16 32)
    && (k == 1 || rsvdOk b 48 8) && (if other then keOther b != 0 else keOther b == 0)
    && (other || rsvdOk b 64 32) && (k == 6 || rsvdOk b 96 16)

/-- Class 5 (Table 9.9): a release names an existing tenant domain, in whose scope or in the module's it is opened; a restore
is opened in the module scope. -/
def body5Ok (s : State) (scope : Nat) (b : List Byte) : Bool :=
  let op := fieldAt b 0 1
  let r := fieldAt b 1 1
  let d := fieldAt b 2 2
  decide (1 ≤ d) &&
    (if op = 1 then decide (1 ≤ r ∧ r ≤ 4) && rsvdOk b (8 + 32 * r) (128 - 32 * r) && domExists (cfgV s) d
        && (scope == 0 || scope == d)
      else op == 2 && r == 0 && rsvdOk b 40 96 && scope == 0)

/-- The profile that a class 6 body names (R782). -/
def body6 (b : List Byte) : Option ProfileRec :=
  if b.length = 8 ∧ fieldAt b 0 1 < 3 ∧ fieldAt b 1 1 < 2 ∧ fieldAt b 2 1 < 3 ∧ rsvdOk b 3 5 then
    some { code := fieldAt b 0 1, blind128 := fieldAt b 1 1 == 1, vas := fieldAt b 2 1 }
  else none

/-- Class 7 (R779). -/
def body7Ok (b : List Byte) : Bool :=
  b.length == 16 && decide (fieldAt b 0 1 < 32) && rsvdOk b 1 7 && decide (1 ≤ fieldAt b 8 4 ∧ fieldAt b 8 4 ≤ 3600)
    && rsvdOk b 12 4

/-- Class 8 (Table 9.2, R810). -/
def body8Ok (s : State) (b : List Byte) : Bool :=
  (if fieldAt b 0 1 = 1 then s.mer.stepPending else fieldAt b 0 1 == 2 && s.mer.acqConflict)

/-- Fields of a class 9 body (Table 16.1). -/
def prOp (b : List Byte) : Nat := fieldAt b 0 1
def prX (b : List Byte) : Nat := fieldAt b 2 2
def prY (b : List Byte) : Nat := fieldAt b 4 2
def prPreferred (b : List Byte) : Nat := fieldAt b 6 2
def prNamed (b : List Byte) : Nat := fieldAt b 8 2

/-- The ID that the body gives this unit, and the other's. -/
def prOwn (s : State) (b : List Byte) : Nat := if slice b 16 32 = ownIdentity s then prX b else prY b
def prPeer (s : State) (b : List Byte) : Nat := if slice b 16 32 = ownIdentity s then prY b else prX b

/-- Class 9 (Table 16.1, R619). -/
def body9Ok (s : State) (b : List Byte) : Bool :=
  let inPair := fun n : Nat => n == prX b || (n == prY b && n != 0)
  let op := prOp b
  decide (1 ≤ op ∧ op ≤ 5)
    && (slice b 16 32 == ownIdentity s || (slice b 48 32 == ownIdentity s && prY b != 0))
    && decide (1 ≤ prX b ∧ prX b ≤ 0xFFFE ∧ prY b ≤ 0xFFFE) && (prY b != 0 || rsvdOk b 48 32) && prX b != prY b
    && (if op = 1 then inPair (prPreferred b) else prPreferred b == 0)
    && (if op = 1 ∨ op = 4 ∨ op = 5 then inPair (prNamed b) else prNamed b == 0)

/-- The body conforms to its class (R407, R411, R423, R619, R740, R779, R782, R810). -/
def bodyOk (s : State) (scope cls : Nat) (b : List Byte) : Bool :=
  match cls with
  | 1 => body1Ok s b
  | 2 | 3 | 10 => bodyRecOk scope cls b
  | 4 => body4Ok scope b
  | 5 => body5Ok s scope b
  | 6 => (body6 b).isSome
  | 7 => body7Ok b
  | 8 => body8Ok s b
  | 9 => body9Ok s b
  | _ => false

/-- The class is available in the scope (Table 9.2). -/
def scopeHas (s : State) (scope cls : Nat) : Bool :=
  decide (1 ≤ cls ∧ cls ≤ 10) && (scope == 0 || cls == 3 || cls == 4 || cls == 5 || cls == 10)
    && (scope == 0 || s.lcf.holdWater || scopeOk (cfgV s) scope)

/-- A ceremony that Hold-Water allows (Table 19.5). -/
def holdAllows (s : State) (cls : Nat) (b : List Byte) : Bool :=
  (cls == 1 && (fieldAt b 0 1 == 5 || fieldAt b 0 1 == 6)) ||
    (cls == 9 && (prOp b == 1 || prOp b == 5)
      && (s.lcf.failure == fcUndecided || s.lcf.failure == fcConflict || s.lcf.failure == fcRetired))

/-! ### Opening (R413, R414) -/

/-- D (R413). -/
def cerDigest (c : Ceremony) : List Byte :=
  sha3_256 ("WX-CEREMONY".toList.map (fun a => BitVec.ofNat 8 a.toNat) ++ leBytes 4 c.number ++ leBytes 1 c.cls
    ++ leBytes 2 c.scope ++ leBytes 8 c.close ++ c.nonce ++ leBytes 4 c.body.length ++ c.body)

/-- `window_s` in ticks (Table 9.17). -/
def windowTicks (s : State) : Nat := clamp 30 3600 (fld s 0x0013000C 0 12) * tickS

/-- Replace bytes of a body. -/
def fillBody (b : List Byte) (off : Nat) (v : List Byte) : List Byte := b.take off ++ v ++ b.drop (off + v.length)

/-- What the KSC draws at open: the seed of the component key pair, or the random number token (Table 9.6, R424). -/
def openDraw (cls : Nat) (b : List Byte) : Nat :=
  if cls ≠ 4 then 0 else if keKind b = 1 then 64 else if keKind b = 5 then 16 else 0

/-- The body as the module completes it with a draw, and what the reply adds (Tables 9.6 and 20.12). -/
def filled (cls : Nat) (b draw : List Byte) : List Byte × List Byte :=
  if cls = 4 ∧ keKind b = 1 then
    let ek := derivePublic 0x21 draw 1184
    (fillBody b 64 (sha3_256 ek), ek)
  else if cls = 4 ∧ keKind b = 5 then (fillBody b 96 draw, draw)
  else (b, [])

/-- A class 10 ceremony of a scope without officers completes at open (R410). -/
def completesAtOpen (s : State) (scope cls : Nat) : Bool := cls == 10 && (officersOf s scope).isEmpty

/-- Open a ceremony (R413, R414): it, what the reply adds, and the state; none while the system DRBG cannot serve. -/
def openCer (s : State) (scope cls : Nat) (b : List Byte) : Option (Ceremony × List Byte × State) :=
  let draw := fun (s : State) => if openDraw cls b = 0 then some ([], s) else sysDraw s .ksc (openDraw cls b)
  (sysDraw s .qrm 32).bind fun r => (draw r.2).map fun p =>
    let (d, s) := p
    let (body, more) := filled cls b d
    let c : Ceremony :=
      { number := s.qrm.nextNum, cls := cls, scope := scope, body := body, close := s.mer.t + windowTicks s, nonce := r.1
        dk := if cls = 4 ∧ keKind b = 1 then d else []
        state := if completesAtOpen s scope cls then .complete else .open
        k := (ruleOf s scope cls b).1 }
    let old := fun x : Ceremony => if x.scope = scope ∧ x.cls = cls ∧ x.state = .open then x.ended .cancelled else x
    (c, more, { s with qrm := { s.qrm with cers := s.qrm.cers.map old ++ [c], nextNum := (s.qrm.nextNum + 1) % 2 ^ 32 } })

/-! ### What a completed ceremony carries out -/

/-- The end of a ceremony: the state, the status and CSN of its answer, and what the answer adds. `wait`: the KSC waits for the
system DRBG or for `en` (R404, R530), and the command changes nothing. -/
structure CerEnd where
  s : State
  status : Nat := 0
  csn : Option Nat := none
  more : List Byte := []
  wait : Bool := false

/-- A ceremony ends. -/
def endCer (s : State) (n : Nat) (st : CerState) (status : Nat) : State :=
  modCer s n fun c => { c.ended st with status := status, doneAt := some (now s) }

/-- It moves to FAILED. -/
def failCer (s : State) (n status : Nat) : CerEnd := { s := endCer s n .failed status, status := status }

/-- It is carried out without a commit. -/
def doneCer (s : State) (n : Nat) : CerEnd := { s := endCer s n .carriedOut 0 }

/-- Its command changes nothing but that the wait for the system DRBG runs (Table 13.3). -/
def holdCer (s : State) (n : Nat) : State :=
  if sysReady s && wireTurn s .ksc then s
  else sysWait (modCer s n fun c => { c with asked := some (c.asked.getD (now s)) }) .ksc

/-- It waits. -/
def waitCer (s : State) : CerEnd := { s := s, wait := true }

/-- It commits records (R47, R404, R426): a unit that does not serve commits none. -/
def commitCer (s : State) (n : Nat) (recs : List Rec) (more : List Byte := []) : CerEnd :=
  if serves s = false then failCer s n St.notAuthorised
  else if kscOn s = false then waitCer s
  else
    let (r, t) := tryCommit s s.ksc.v recs [n] none
    if r.status ≠ 0 then failCer t n r.status
    else { s := endCer t n .carriedOut 0, csn := r.csn, more := more }

/-- A committed key by its ID. -/
def keyById (s : State) (id : Nat) : Option KeyRec := (cfgV s).keys.find? fun k => k.name == nameOfId id

/-- Commit a new dual-control key; `more` is its ID and key check value (R425). -/
def enterKey (s : State) (n scope : Nat) (a : Attrs) (material : List Byte) : CerEnd :=
  if s.variant.keyRecords < recordsUsed s + recordsOf a.alg a.size then failCer s n St.storeFull
  else match nextName s scope with
    | none => failCer s n St.storeFull
    | some name => match sysDraw s .ksc 5 with
      | none => waitCer s
      | some (iv, s) =>
        let k : KeyRec := { name := name, attrs := a, ivFixed := leNat iv, material := material }
        let k := { k with kcv := kcvOf k }
        commitCer { s with ksc := { s.ksc with issued := s.ksc.issued ++ [(name.dom, name.idx, name.gen)] } } n [.keyCreate k]
          (leBytes 8 (keyIdOf name) ++ k.kcv.take 3 ++ zeros 5)

/-- Odd parity in a byte of a TDES key (R425). -/
def oddParity (b : Byte) : Byte :=
  let ones := ((List.range 7).filter fun i => b.getLsbD (i + 1)).length
  (b &&& 0xFE) ||| (if ones % 2 = 0 then 1 else 0)

/-- XOR of components. -/
def xorAll : List (List Byte) → List Byte
  | [] => []
  | c :: rest => rest.foldl xorBytes c

/-- Key check value of bare material under an algorithm (R371). -/
def kcvFor (a : Attrs) (material : List Byte) : List Byte := (kcvOf (bareKey a material)).take 3

/-- Kind 1 (R425): odd parity is set in every byte of a TDES key. -/
def enterComponents (s : State) (c : Ceremony) (a : Attrs) : CerEnd :=
  let x := xorAll c.components
  let m := if isTdes a.alg then x.map oddParity else x
  let want := slice c.body 48 8
  if allZero x = true ∨ (a.alg = 4 ∧ m.take 8 = m.drop 8) ∨ (allZero want = false ∧ want.take 3 ≠ kcvFor a m) then
    failCer s c.number St.keyPolicy
  else enterKey s c.number c.scope a m

/-- Kind 2 (R229, R426, Table 18.4). -/
def enterGenerated (s : State) (c : Ceremony) (a : Attrs) : CerEnd :=
  if genLocked s then failCer s c.number St.tamperLock
  else match sysDraw s .ksc (secretLen a.alg a.size) with
    | some (m, s) => enterKey s c.number c.scope { a with generated := true } (materialFrom a.alg m)
    | none => waitCer s

/-- Kinds 3 and 4 (R423, R426): they act on keys that carry the dual-control flag; the new descriptor is committed as given, its
dual-control flag too. -/
def changeDual (s : State) (c : Ceremony) : CerEnd :=
  match keyById s (keKey c.body) with
  | none => failCer s c.number St.keyNotFound
  | some k =>
    if k.attrs.dual = false then failCer s c.number St.keyPolicy
    else if keKind c.body = 3 then commitCer s c.number [.keyDelete k.name]
    else match parseAttrs (slice c.body 16 32) with
      | some a =>
        if a.alg = k.attrs.alg ∧ a.size = k.attrs.size then
          commitCer s c.number [.keyAttrs k.name { a with generated := k.attrs.generated, persist := true }]
        else failCer s c.number St.paramInvalid
      | none => failCer s c.number St.paramInvalid

end Sys2Proof.Machine
end

