-- ==== Sys2Proof/Machine/Bundle.lean ====
section
/-! DEFINITION. Domain backup bundles (R434 to R437, Tables 9.9 and 9.14): their bytes, and what a restore reads out of them. -/

namespace Sys2Proof.Machine

/-! ### Layout (log 44) -/

/-- The 128-byte header: magic, format, domain, recipients, CSN, key records, the exporting pair's two unit IDs, T and the
length of the body. -/
def bundleHeader (s : State) (d r count len : Nat) : List Byte :=
  leBytes 4 0x4B425857 ++ leBytes 2 1 ++ leBytes 2 d ++ leBytes 2 r ++ zeros 6 ++ leBytes 8 s.ksc.v ++ leBytes 4 count
    ++ leBytes 2 s.prl.unitId ++ leBytes 2 s.prl.peerId ++ leBytes 8 s.mer.t ++ leBytes 8 len ++ zeros 80

/-- Records of a domain as of a configuration: its keys, and its officer set, policies, settings and usage policies. -/
def bundleKeys (c : Cfg) (d : Nat) : List KeyRec := c.keys.filter fun k => k.name.dom == d
def bundleConfs (c : Cfg) (d : Nat) : List ConfRec :=
  ((alGet c.officers d).map (ConfRec.officerSet d)).toList ++ ((alGet c.policies d).map (ConfRec.policy d)).toList
    ++ ((alGet c.settings d).map (ConfRec.settings d)).toList
    ++ (c.usages.filter fun u => u.1.1 == d).map fun u => .usage d u.2

/-- The body in clear. -/
def bundleBody (c : Cfg) (d : Nat) : List Byte :=
  (bundleKeys c d).flatMap (fun k => (clearRecords k).flatten) ++ (bundleConfs c d).flatMap confBytes

/-- Records of 256 bytes in the body. -/
def bundleCount (c : Cfg) (d : Nat) : Nat := ((bundleKeys c d).map fun k => recordsOf k.attrs.alg k.attrs.size).sum

/-- The key of an entry: KMAC256 of the shared secret with the header digest. -/
def entryKey (ss hd : List Byte) : KeyRec := bareKey { alg := 3 } (kmac256 ss hd 32 (ascii "WX-BACKUP"))

/-- The entry of recipient `i`: its digest, an encapsulation to its key, and the content key under AES-KW. -/
def recipientEntry (hd ck digest rand : List Byte) : List Byte :=
  let x := kemEncaps 0x22 (Config.recipientKey digest) rand 1568
  digest ++ x.1 ++ cryptoBytes .kwWrap (keyIn (entryKey x.2 hd) ++ [leBytes 1 1, ck]) 40

/-- The body in chunks of 64 KiB, chunk `i` under the content key with IV i. -/
def sealChunks (ck hd body : List Byte) : List Byte :=
  ((chunks 65536 body).zipIdx.map fun p => let x := gcmSeal ck (leBytes 12 p.2) hd p.1; x.1 ++ x.2).flatten

/-- The bundle of a domain as of V, from the draw of the content key, the encapsulations and the signature. -/
def bundleOf (s : State) (c : Ceremony) (rand : List Byte) : List Byte :=
  let d := fieldAt c.body 2 2
  let r := fieldAt c.body 1 1
  let body := bundleBody (cfgV s) d
  let h := bundleHeader s d r (bundleCount (cfgV s) d) body.length
  let hd := sha3_256 h
  let ck := rand.take 32
  let entries := (List.range r).flatMap fun i => recipientEntry hd ck (slice c.body (8 + 32 * i) 32) (slice rand (64 + 32 * i) 32)
  let m := h ++ entries ++ sealChunks ck hd body
  m ++ mldsaSigned 0x28 (ownKeys s).attest [] (sha3_256 m) (slice rand 32 32) 2420

/-! ### Reading -/

/-- A received bundle in its parts. -/
structure Bundle where
  header : List Byte
  entries : List (List Byte)
  sealed : List (List Byte)
  /-- everything before the trailer -/
  signed : List Byte
  trailer : List Byte

/-- Domain, key records and body length that a header gives. -/
def Bundle.dom (x : Bundle) : Nat := fieldAt x.header 6 2
def Bundle.count (x : Bundle) : Nat := fieldAt x.header 24 4
def Bundle.bodyLen (x : Bundle) : Nat := fieldAt x.header 40 8

/-- Parts of an input; none where its layout or lengths break Table 9.14. -/
def parseBundle (b : List Byte) : Option Bundle :=
  let h := slice b 0 128
  let r := fieldAt h 8 2
  let n := fieldAt h 40 8
  let sealedLen := n + 16 * ceilDiv n 65536
  let m := 128 + 1640 * r + sealedLen
  if b.length = m + 2420 ∧ fieldAt h 0 4 = 0x4B425857 ∧ fieldAt h 4 2 = 1 ∧ 1 ≤ r ∧ r ≤ 4 ∧ rsvdOk h 10 6 ∧ rsvdOk h 48 80 then
    some { header := h, entries := chunks 1640 (slice b 128 (1640 * r)), sealed := chunks 65552 (slice b (128 + 1640 * r) sealedLen)
           signed := b.take m, trailer := b.drop m }
  else none

/-- The trailer's signature verifies under a certificate that leads to the Perzihal Root (R442, log 15). -/
def trailerOk (x : Bundle) : Bool := Config.cryptoOk .cert [sha3_256 x.signed, x.trailer]

/-- The entry that names this module's backup key. -/
def ownEntry (s : State) (x : Bundle) : Option (List Byte) :=
  x.entries.find? fun e => e.take 32 == sha3_256 (ownKeys s).backupEk

/-- The content key of an entry. -/
def contentKey (s : State) (x : Bundle) (e : List Byte) : Option (List Byte) :=
  let k := entryKey (kemDecaps 0x22 (ownKeys s).backup (slice e 32 1568)) (sha3_256 x.header)
  let w := e.drop 1600
  if Config.cryptoOk .kwUnwrap (keyIn k ++ [leBytes 1 1, leBytes 2 32, w]) then
    some (cryptoBytes .kwUnwrap (keyIn k ++ [leBytes 1 1, w]) 32)
  else none

/-- Open sealed chunks from number `i` on. -/
def openChunks (ck hd : List Byte) : Nat → List (List Byte) → Option (List Byte)
  | _, [] => some []
  | i, c :: l =>
    let n := c.length - 16
    (gcmOpen ck (leBytes 12 i) hd (c.take n) (c.drop n)).bind fun p => (openChunks ck hd (i + 1) l).map (p ++ ·)

/-- Configuration records back to back, each as long as its header says; at most `fuel` of them. -/
def parseConfs : Nat → List Byte → Option (List ConfRec)
  | _, [] => some []
  | 0, _ => none
  | n + 1, b =>
    let len := fieldAt b 2 2
    if len < 16 ∨ b.length < len then none
    else (parseRec (b.take len)).bind fun r => (parseConfs n (b.drop len)).map (r :: ·)

/-- A record belongs to the domain. -/
def confOfDom (d : Nat) : ConfRec → Bool
  | .officerSet e _ | .policy e _ | .settings e _ | .usage e _ => e == d
  | _ => false

/-- Keys and records of a bundle's body in clear. -/
def parseBody (x : Bundle) (b : List Byte) : Option (List KeyRec × List ConfRec) :=
  let n := 256 * x.count
  (parseKeys x.count (chunks 256 (b.take n))).bind fun ks =>
    (parseConfs b.length (b.drop n)).bind fun cs =>
      if ks.all (fun k => k.name.dom == x.dom) && cs.all (confOfDom x.dom) then some (ks, cs) else none

/-- What this module can open of a bundle. -/
def openBundle (s : State) (x : Bundle) : Option (List KeyRec × List ConfRec) :=
  (ownEntry s x).bind fun e => (contentKey s x e).bind fun ck =>
    (openChunks ck (sha3_256 x.header) 0 x.sealed).bind (parseBody x)

/-! ### Release and restore -/

/-- Release (R434): both ceremonies end; the module's one holds the output. -/
def release (s : State) (c d : Ceremony) : CerEnd :=
  if (((alGet (cfgV s).settings (fieldAt c.body 2 2)).getD {}).backupAllowed) = false then
    failCer (failCer s d.number St.keyPolicy).s c.number St.keyPolicy
  else match sysDraw s .ksc (64 + 32 * fieldAt c.body 1 1) with
    | none => waitCer s
    | some (r, s) =>
      let out := bundleOf s c r
      let put := fun s n => endCer (modCer s n fun y => { y with output := out }) n .carriedOut 0
      { s := put (put s d.number) c.number }

/-- A bundle whose header breaks R14 or R28: a reserved byte is not zero, or the domain lies outside its range. -/
def headerBad (b : List Byte) : Bool :=
  decide (128 ≤ b.length) && (!rsvdOk b 10 6 || !rsvdOk b 48 80 || decide (4096 < fieldAt b 6 2))

/-- Status of a restore, and what it restores (R14, R28, R319, R436; log 44). -/
def restoreCheck (s : State) (c : Ceremony) : Nat × List KeyRec × List ConfRec :=
  let dom := fieldAt c.body 2 2
  if headerBad c.input then (St.badFormat, [], [])
  else match parseBundle c.input with
  | none => (St.notAuthorised, [], [])
  | some x =>
    if sha3_256 x.header ≠ slice c.body 8 32 ∨ x.dom ≠ dom ∨ trailerOk x = false ∨ (ownEntry s x).isNone = true then
      (St.notAuthorised, [], [])
    else if checkRecord s (cfgV s) (.domainCreate dom) ≠ 0 then (St.paramInvalid, [], [])
    else if s.prl.unitId = 0 ∨ s.prl.unitId = fieldAt x.header 28 2 ∨ s.prl.unitId = fieldAt x.header 30 2 then
      (St.keyPolicy, [], [])
    else match openBundle s x with
      | some (ks, cs) => (0, ks, cs)
      | none => (St.authFail, [], [])

/-- Restore (R436, R437): one commit of the whole domain. -/
def restore (s : State) (c d : Ceremony) : CerEnd :=
  let (st, ks, cs) := restoreCheck s c
  if st ≠ 0 then failCer s c.number st
  else
    let keys := ks.map fun k => Rec.keyCreate { k with restored := true }
    let e := commitCer s c.number (.conf (.domainCreate (fieldAt c.body 2 2)) :: keys ++ cs.map .conf)
    if e.status = 0 ∧ e.wait = false then { e with s := endCer e.s d.number .carriedOut 0 } else e

/-- COMPLETE and still within its window. -/
def inWindow (s : State) (c : Ceremony) : Bool :=
  c.state == .complete && c.reservedBy.isNone && decide (s.mer.t + uTicks s < c.close)

/-- A module class 5 ceremony with its partner, both within their windows. -/
def backupDue (s : State) : Option (Ceremony × Ceremony) :=
  (s.qrm.cers.filter fun c => c.cls == 5 && c.scope == 0 && inWindow s c).findSome? fun c =>
    let dom := fieldAt c.body 2 2
    let partner := if fieldAt c.body 0 1 = 1 then
        s.qrm.cers.find? fun d => d.cls == 5 && d.scope == dom && inWindow s d && d.body == c.body
      else if c.inputDone then
        s.qrm.cers.find? fun d => d.cls == 2 && inWindow s d && parseRec d.body == some (.domainCreate dom)
      else none
    partner.map fun d => (c, d)

/-- Carry out a backup operation that is due. -/
def backup (s : State) : CerEnd :=
  match backupDue s with
  | some (c, d) => if fieldAt c.body 0 1 = 1 then release s c d else restore s c d
  | none => { s := s }

end Sys2Proof.Machine
end

