-- ==== Sys2Proof/Machine/Tr34.lean ====
section
/-! DEFINITION. TR-34 key entry (R432, R433, Tables 9.12 and 9.13): its checks on what the DER of the station's input holds. -/

namespace Sys2Proof.Machine

/-- The input is the one that the body names. -/
def inputOk (c : Ceremony) : Bool := decide (c.input.length ≤ 16384) && sha3_256 c.input == slice c.body 64 32

/-- Anchor of a scope's TR-34 CA (Table 9.4). -/
def anchorOf (s : State) (scope : Nat) : List Byte := ((alGet (cfgV s).settings scope).getD {}).tr34Anchor

/-- Each certificate is signed by the next, and the last holds the CA's key (log 15). -/
def chainLinks (anchor : List Byte) : List Cert → Bool
  | [] => false
  | [c] => sha3_256 c.spki == anchor
  | c :: d :: l => Config.cryptoOk .rsaVerify [d.spki, c.tbs, c.sig] && chainLinks anchor (d :: l)

/-- A chain of at most 3 leads to the scope's anchor. -/
def chains (s : State) (scope : Nat) (l : List Cert) : Bool :=
  let anchor := anchorOf s scope
  !allZero anchor && decide (l.length ≤ 3) && chainLinks anchor l

/-- Row 2 of Table 9.13: it chains, and its first certificate is valid throughout [T − u, T + u]. -/
def chainGood (s : State) (scope : Nat) (l : List Cert) : Bool :=
  chains s scope l
    && l.head?.any fun c => decide (c.notBefore + uTicks s ≤ s.mer.t ∧ s.mer.t + uTicks s ≤ c.notAfter)

/-- Row 4: the token that this ceremony gave, or a signing time within 300 s of T, widened by u. -/
def freshOk (s : State) (c : Ceremony) (x : Tr34) : Bool :=
  match x.token with
  | some t => t == slice c.body 96 16
  | none =>
    let w := 300 * tickS + uTicks s
    decide (x.signTime ≤ s.mer.t + w ∧ s.mer.t ≤ x.signTime + w)

/-- Length of an ephemeral key (Table 9.12). -/
def ephLen : Nat → Option Nat
  | 1 => some 16 | 3 => some 32 | 5 => some 24 | _ => none

/-- The ephemeral key under the KRD's RSA key: none where OAEP does not open. -/
def ephemeral (krd : KeyRec) (x : Tr34) : Option KeyRec :=
  (ephLen x.ephAlg).bind fun n =>
    if Config.cryptoOk .oaep (keyIn krd ++ [leBytes 2 n, x.wrapped]) then
      some (bareKey { alg := x.ephAlg } (cryptoBytes .oaep (keyIn krd ++ [x.wrapped]) n))
    else none

/-- Rows 2 to 7 for a parsed token: the status, and the material. -/
def importToken (s : State) (c : Ceremony) (a : Attrs) (x : Tr34) : Nat × List Byte :=
  if chainGood s c.scope x.chain = false then (St.notAuthorised, [])
  else if Config.cryptoOk .rsaVerify [(x.chain.head?.map (·.spki)).getD [], x.signed, x.sig] = false ∨ freshOk s c x = false then
    (St.authFail, [])
  else match keyById s (keOther c.body) with
    | none => (St.keyPolicy, [])
    | some krd =>
      if Config.cryptoOk .tr34 [x.recipient, publicPart krd] = false then (St.keyPolicy, [])
      else match ephemeral krd x with
        | none => (St.authFail, [])
        | some e => match x9Open e a x.block with
          | (0, some h, p) => if x9Grants a h then (0, materialOf a.alg p) else (St.keyPolicy, [])
          | _ => (St.authFail, [])

/-- Kind 5: the checks of Table 9.13 in their order. A signer has 2,048 to 4,096 bits. -/
def importCheck (s : State) (c : Ceremony) (a : Attrs) : Nat × List Byte :=
  match Config.tr34Parse c.input with
  | none => (St.badFormat, [])
  | some x =>
    if inputOk c = false ∨ (x.chain.head?.any fun k => decide (2048 ≤ k.bits ∧ k.bits ≤ 4096)) = false then (St.badFormat, [])
    else importToken s c a x

/-- Kind 6: the exported key, the signing key and the KRD's certificate, or the first failing condition of R433. -/
def exportCheck (s : State) (c : Ceremony) : Nat × Option (KeyRec × KeyRec × Cert) :=
  match Config.krdParse c.input, inputOk c with
  | some l, true => match keyById s (keKey c.body), keyById s (keOther c.body), l.head? with
    | some k, some y, krd =>
      if k.attrs.exportable = false ∨ bitOf y.attrs.usage uSign = false ∨ bitOf y.attrs.engines eBne = false then
        (St.keyPolicy, none)
      else match krd with
        | none => (St.notAuthorised, none)
        | some d =>
          if chains s c.scope l = false then (St.notAuthorised, none)
          else if d.bits ≠ 2048 ∧ d.bits ≠ 3072 then (St.paramInvalid, none)
          else (0, some (k, y, d))
    | _, _, _ => (St.keyPolicy, none)
  | _, _ => (St.badFormat, none)

/-- The token that an export returns (Table 9.12, log 15): of the exported key, the signing key, the KRD's key and token, the
time, and randomness. -/
def exportToken (s : State) (c : Ceremony) (k y : KeyRec) (d : Cert) (rand : List Byte) : List Byte :=
  cryptoBytes .tr34 (keyIn k ++ keyIn y ++ [d.spki, slice c.body 96 16, leBytes 8 s.mer.t, rand]) (Config.tr34Len c.number)

/-- Kinds 5 and 6, once complete and with their input (R432, R433). -/
def tr34 (s : State) (c : Ceremony) : CerEnd :=
  if keKind c.body = 5 then
    match keAttrs c.body with
    | some a =>
      let (st, m) := importCheck s c a
      if st ≠ 0 then failCer s c.number st else enterKey s c.number c.scope a m
    | none => failCer s c.number St.paramInvalid
  else
    match exportCheck s c with
    | (_, some (k, y, d)) => match sysDraw s .ksc 96 with
      | none => waitCer s
      | some (r, s) => doneCer (modCer s c.number fun z => { z with output := exportToken s c k y d r }) c.number
    | (st, none) => failCer s c.number st

end Sys2Proof.Machine
end

