-- ==== Sys2Proof/Machine/Completion.lean ====
section
/-! DEFINITION. What a completed ceremony carries out (R417, R426, R432 to R436, R618 to R624, R647, R737, R779, R782, R810),
and the approvals that complete one (R415 to R417, R421, R424). -/

namespace Sys2Proof.Machine

/-- Key entry at completion (R423 to R426, R432, R433). -/
def keyEntry (s : State) (c : Ceremony) : CerEnd :=
  match keKind c.body, keAttrs c.body with
  | 1, some a => enterComponents s c a
  | 2, some a => enterGenerated s c a
  | 3, _ | 4, _ => changeDual s c
  | 5, _ | 6, _ => if c.inputDone then tr34 s c else { s := s }
  | _, _ => failCer s c.number St.paramInvalid

/-! ### The pair (R620 to R622, R624, R631, R647) -/

/-- The unit takes its place in a pair, or serves alone (R620). -/
def formPair (s : State) (b : List Byte) : State :=
  let own := prOwn s b
  let s := modPrl s fun p =>
    { p with unitId := own, peerId := prPeer s b, paired := prY b != 0, preferred := prPreferred b == own, retired := false }
  let serve := prY b == 0 || prNamed b == own
  if s.lcf.holdWater then modPrl s fun p => { p with solo := serve, renounced := false }
  else if serve then serveSingle (modPrl s fun p => { p with solo := false, renounced := false })
  else enterJoining s

/-- What a unit puts into the transcript of R621: encapsulation key, P-256 share, certificate chain, `MOD_VARIANT` variant
field and ciphertext (log 109). -/
def offerBytes (ek share chain : List Byte) (variant : Nat) (ct : List Byte) : List Byte :=
  ek ++ share ++ leBytes 4 chain.length ++ chain ++ leBytes 1 variant ++ ct

/-- Code of the variant in `MOD_VARIANT`. -/
def variantCode : Variant → Nat
  | .wx7480 => 0x80
  | .wx7440 => 0x40

/-- Outcome of the exchange of R621: a status, and K_pair. `rand` is this unit's draw: the seed of its key pair, its scalar
and the randomness of its encapsulation. The other unit is refused where its chain or its signature does not verify, or where
its identity is not the body's. -/
def pairExchange (s : State) (b : List Byte) (o : PairOffer) (rand : List Byte) : Nat × List Byte :=
  let seed := rand.take 64
  let scalar := slice rand 64 32
  let kem := kemEncaps 0x21 o.ek (slice rand 96 32) 1088
  let first := slice b 16 32 == ownIdentity s
  let mine := offerBytes (derivePublic 0x21 seed 1184) (p256Share scalar) (moduleChain s) (variantCode s.variant) kem.1
  let theirs := offerBytes o.ek o.share o.chain o.variant o.ct
  let script := if first then mine ++ theirs else theirs ++ mine
  let got := kemDecaps 0x21 seed o.ct
  let ss := (if first then kem.2 ++ got else got ++ kem.2) ++ p256Secret scalar o.share
  if o.variant ≠ variantCode s.variant then (St.paramInvalid, [])
  else if chainIdentity o.chain ≠ slice b (if first then 48 else 16) 32 ∨ onCurve 0 o.share = false
      ∨ (chainAttestPk o.chain).any (fun pk => mldsaVerifies 0x28 pk [] script o.sig) = false then (St.notAuthorised, [])
  else (0, kmac256 ss (sha3_256 script) 32 (ascii "WX-PLP-PAIR"))

/-- Operation 1 naming two units (R620, R622): nothing happens before the peer holds it COMPLETE and its side of the exchange
has come (log 109). -/
def formTwo (s : State) (c : Ceremony) (peer : Option PairOffer) : CerEnd :=
  let b := c.body
  let n := c.number
  match peer with
  | none => { s := s }
  | some o => match sysDraw s .ksc 160 with
    | none => waitCer s
    | some (r, s) =>
      let (st, k) := pairExchange s b o r
      if st = St.paramInvalid then failCer (logOpen s 0x0C 4) n st
      else if st ≠ 0 then failCer s n st
      else if prNamed b ≠ prOwn s b ∧ (cfgV s).domains ≠ [] then failCer s n St.paramInvalid
      else
        let s := (doneCer s n).s
        { s := formPair (modPrl s fun p => { p with pairKey := some k }) b }

/-- Class 9 at completion. -/
def pairCeremony (s : State) (c : Ceremony) (peer : Option PairOffer) : CerEnd :=
  let b := c.body
  let n := c.number
  match prOp b with
  | 1 => if prY b = 0 then { (doneCer s n) with s := formPair (doneCer s n).s b } else formTwo s c peer
  | 2 =>
    if roleOf s = .active ∨ roleOf s = .single then
      let s := (doneCer s n).s
      { s := serveSingle (modPrl s fun p => { p with paired := false, peerId := 0, pairKey := none, solo := false, unacked := [] }) }
    else failCer s n St.notAuthorised
  | 3 => { s := clearDivergence (doneCer s n).s }
  | 4 =>
    let s := (doneCer s n).s
    if prNamed b = prOwn s b then
      { s := enterHoldWater (modPrl (sendPlp s 12 []) fun p => { p with retired := true }) fcRetired }
    else { s := clearDivergence s }
  | _ =>
    let s := (doneCer s n).s
    if prNamed b = prOwn s b then
      let s := modPrl s fun p => { p with solo := true, renounced := false, joinConflict := false }
      { s := if s.lcf.holdWater then s else serveSingle s }
    else { s := modPrl s fun p => { p with solo := false } }

/-! ### Completion (R417) -/

/-- Class 6 (R782): the hold limit is checked against the commit's snapshot (R287). -/
def profileCeremony (s : State) (c : Ceremony) : CerEnd :=
  match body6 c.body with
  | some p =>
    if holdFits s.variant p.code (cfgV s) = false then failCer s c.number St.reservationLimit
    else commitCer s c.number [.conf (.profile p)]
  | none => failCer s c.number St.paramInvalid

/-- Class 7 (R779): the injectors that the mask names. -/
def drillCeremony (s : State) (c : Ceremony) : CerEnd :=
  let till := s.mer.t + fieldAt c.body 8 4 * tickS
  let s := (List.range 5).foldl (fun s i =>
    if bitOf (fieldAt c.body 0 1) i then modInj s i fun x => { x with permit := some till } else s) s
  doneCer s c.number

/-- Class 8 (R86, R92, R810): a refused one moves to FAILED. -/
def timeCeremony (s : State) (c : Ceremony) : CerEnd :=
  let (ok, t) := stepCeremony s c.number (fieldAt c.body 0 1) (fieldAt c.body 8 8)
  if ok then doneCer t c.number else { s := endCer t c.number .failed 0 }

/-- An operation that Table 9.2 gives to a block is carried out at once; a class 1 change begins after the answer
(`afterAnswer`), and classes 2, 3 and 10 wait for their `JPUT`. -/
def carryOut (s : State) (c : Ceremony) (peer : Option PairOffer) : CerEnd :=
  match c.cls with
  | 1 => doneCer s c.number
  | 2 | 5 => backup s
  | 4 => keyEntry s c
  | 6 => profileCeremony s c
  | 7 => drillCeremony s c
  | 8 => timeCeremony s c
  | 9 => pairCeremony s c peer
  | _ => { s := s }

/-- What follows the answer: a completed class 1 ceremony begins its transition (R737). -/
def afterAnswer (s : State) (n : Nat) : State :=
  match s.qrm.cers.find? fun c => c.number == n with
  | some c =>
    if c.cls = 1 ∧ c.state = .carriedOut ∧ mayTransit s = true then
      match cerTransition (fieldAt c.body 1 1) (fieldAt c.body 0 1) with
      | some code => beginTransition s code 0
      | none => s
    else s
  | none => s

/-- The ceremony is complete once it holds k approvals and, for kind 1, its components (R417). -/
def completeIfDue (s : State) (n : Nat) (peer : Option PairOffer) : CerEnd :=
  match s.qrm.cers.find? fun c => c.number == n with
  | some c =>
    let parts := if c.cls = 4 ∧ keKind c.body = 1 then fieldAt c.body 1 1 else 0
    if c.state = .open ∧ c.k ≤ c.slots.length ∧ parts ≤ c.accepted then
      let c := { c with state := .complete }
      carryOut (modCer s n fun _ => c) c peer
    else { s := s }
  | none => { s := s }

/-! ### Approvals -/

/-- A failed approval (R421): the quorum-abuse source at the limit. -/
def countFailure (s : State) (scope : Nat) : State :=
  let keep := s.qrm.fails.filter fun t => decide (now s < t + 600 * tickS)
  let s := { s with qrm := { s.qrm with fails := keep ++ [now s], total := satInc 65535 s.qrm.total } }
  if clamp 1 64 (fld s 0x00130010 0 7) ≤ s.qrm.fails.length then alarmEvent (setBit s 0x00130008 2) 27 scope else s

/-- Lengths of a public key and a signature under an `alg` of Table 9.1. -/
def officerLens : Nat → Option (Nat × Nat)
  | 0x28 => some (1312, 2420)
  | 0x11 => some (97, 96)
  | _ => none

/-- Length of a component envelope (Table 9.7); a ceremony of another kind takes none. -/
def envelopeLen (c : Ceremony) : Option Nat :=
  if c.cls = 4 ∧ keKind c.body = 1 then (keAttrs c.body).map fun a => 1104 + materialLen a.alg a.size else none

/-- A submission of Table 9.5a for a ceremony; none where its layout, lengths or reserved fields break the table (row 2). -/
def parseSubmission (c : Ceremony) (b : List Byte) : Option Submission :=
  (officerLens (fieldAt b 5 1)).bind fun l =>
    let e := fieldAt b 20 2
    if 24 ≤ b.length ∧ b.length = 24 + l.1 + l.2 + e ∧ fieldAt b 16 2 = l.1 ∧ fieldAt b 18 2 = l.2 ∧ rsvdOk b 6 2 ∧ rsvdOk b 22 2 ∧
        (if e = 0 then rsvdOk b 8 8 = true else envelopeLen c = some e) then
      some { number := fieldAt b 0 4, slot := fieldAt b 4 1, alg := fieldAt b 5 1, kcv := slice b 8 8, pk := slice b 24 l.1
             sig := slice b (24 + l.1) l.2, envelope := slice b (24 + l.1 + l.2) e }
    else none

/-- The submission brings a component. -/
def Submission.brings (a : Submission) : Bool := !a.envelope.isEmpty

/-- Row 3 of Table 9.5b. -/
def submitterOk (s : State) (c : Ceremony) (a : Submission) : Bool :=
  let role := if a.brings then 1 else 0
  bitOf (ruleOf s c.scope c.cls c.body).2 a.slot && (officersOf s c.scope).any fun o =>
    o.slot == a.slot && o.alg == a.alg && o.pkDigest == sha3_256 a.pk && bitOf o.roles role

/-- m of R415. -/
def approvalMessage (c : Ceremony) (a : Submission) : List Byte :=
  cerDigest c ++ leBytes 4 c.number ++ leBytes 1 a.slot ++ a.kcv

/-- Row 5: the signature verifies over m (R415). -/
def approvalSigOk (c : Ceremony) (a : Submission) : Bool :=
  let m := approvalMessage c a
  if a.alg = 0x11 then ecdsaVerifies 1 a.pk (sha384 m) a.sig else mldsaVerifies 0x28 a.pk (ascii "WX-APPROVAL") m a.sig

/-- Rows 3 to 5 of Table 9.5b. -/
def submissionCheck (s : State) (c : Ceremony) (a : Submission) : Nat :=
  if submitterOk s c a = false then St.notAuthorised
  else if c.close ≤ s.mer.t + uTicks s then St.quorumRequired
  else if approvalSigOk c a = false then St.authFail else 0

/-- The component of an envelope (Table 9.7); none where it does not open. -/
def openEnvelope (c : Ceremony) (a : Submission) : Option (List Byte) :=
  let d := cerDigest c
  let key := kmac256 (kemDecaps 0x21 c.dk (a.envelope.take 1088)) (d ++ leBytes 1 a.slot) 32 (ascii "WX-COMPONENT")
  let n := a.envelope.length - 1104
  gcmOpen key (zeros 12) d (slice a.envelope 1088 n) (a.envelope.drop (1088 + n))

/-- The checks of R424 on an envelope: the status, the computed key check value, the component. A component beyond the number
that the body names is refused. -/
def envelopeCheck (c : Ceremony) (a : Submission) : Nat × List Byte × List Byte :=
  match keAttrs c.body, openEnvelope c a with
  | some d, some m =>
    let v := kcvFor d m
    if fieldAt c.body 1 1 ≤ c.components.length then (St.notAuthorised, [], [])
    else if v ≠ a.kcv.take 3 ∨ allZero m = true ∨ c.components.contains m = true then (St.keyPolicy, v, [])
    else (0, v, m)
  | _, _ => (St.authFail, [], [])

/-- Answer to a ceremony message: number, state word, key check value (Table 20.12). -/
def cerAnswer (s : State) (n : Nat) (kcv : List Byte) : List Byte :=
  leBytes 4 n ++ leBytes 4 (((s.qrm.cers.find? fun c => c.number == n).map cerWord).getD 0) ++ kcv.take 3
    ++ zeros (8 - (kcv.take 3).length)

/-- An approval is counted. -/
def addSlot (s : State) (n slot : Nat) : State := modCer s n fun c => { c with slots := c.slots ++ [slot] }

/-- An approval that passed rows 1 to 5 (R416, R417, R424): the end, and the key check value of its component. -/
def takeApproval (s : State) (c : Ceremony) (a : Submission) (peer : Option PairOffer) : CerEnd × List Byte :=
  let n := c.number
  match c.slots.contains a.slot, a.brings with
  | true, true => ({ s := s, status := St.notAuthorised }, [])
  | true, false => ({ s := s }, [])
  | false, false => (completeIfDue (addSlot s n a.slot) n peer, [])
  | false, true =>
    let (st, v, m) := envelopeCheck c a
    if st = St.keyPolicy then (failCer s n st, v)
    else if st ≠ 0 then ({ s := s, status := st }, [])
    else
      let s := modCer (addSlot s n a.slot) n fun y =>
        { y with components := y.components ++ [m], accepted := y.accepted + 1 }
      (completeIfDue s n peer, v)

end Sys2Proof.Machine
end

