-- ==== Sys2Proof/Machine/Mgmt.lean ====
section
/-! DEFINITION. Management messages (Table 20.12, R754 to R759), with the limits of Table 19.5 in Hold-Water, and the end of
ceremonies (R419, R757). -/

namespace Sys2Proof.Machine

/-! ### Answers -/

/-- The session carries management messages. -/
def mgmtOn (s : State) (m : Mgmt) : Bool :=
  mgmtServed s && (findSess s m.sess).any fun x => x.mgmt && x.live && x.state != .closing

/-- Answer a message, its status counted (Table 20.5). -/
def answer (s : State) (m : Mgmt) (status : Nat) (payload : List Byte := []) : State :=
  handReply (countStatus s none status) m.sess none { reqId := m.reqId, status := status, payload := payload }

/-- Answer a message that committed: the reply waits for its commit (R55, R758). -/
def answerCommit (s : State) (m : Mgmt) (csn : Option Nat) (payload : List Byte := []) : State :=
  handReply s m.sess csn { reqId := m.reqId, status := 0, csn := csn.getD 0, payload := payload }

/-- A message that the unit's state does not allow (R756). -/
def turnAway (s : State) (m : Mgmt) : State := answer s m (if s.lcf.holdWater then St.holdWater else St.notAuthorised)

/-- A message on a management session: turned away where the state does not allow it. -/
def onMgmt (s : State) (m : Mgmt) (inHold inServ : Bool) (f : State → State) : State :=
  if mgmtOn s m = false then s
  else if (if s.lcf.holdWater then inHold else inServ) then f s else turnAway s m

/-! ### REG (R754, R755) -/

/-- Registers that select what another one shows. -/
def selects (addr : Nat) : Bool :=
  [0x00020034, 0x00030010, 0x00030020, 0x000A0014, 0x000D001C, 0x000E000C, 0x00110018, 0x00110800, 0x0014000C].contains addr
    || (addr / 0x10000 == 11 && addr % 0x4000 == 0x014)

/-- Writes that Hold-Water allows (Table 19.5): freeze and thaw, clearing counters, and selecting what is read. -/
def holdWrite (s : State) (addr : Nat) (v : BitVec 32) : Bool :=
  addr == 0x00110004 || selects addr || (v == 0 && (clearFields s addr v).isSome)

/-- Blocks that a REG message does not write. -/
def regClosed (addr : Nat) : Bool := [15, 16, 19, 21].contains (addr / 0x10000)

/-- One operation of a REG message (R754). -/
structure RegMsg where
  op : Nat
  addr : Nat
  value : BitVec 32
deriving DecidableEq, Repr

/-- Operations of a payload of 12-byte entries; none where the layout breaks R754. -/
def parseReg (b : List Byte) : Option (List RegMsg) :=
  let l := chunks 12 b
  let ok := fun e : List Byte =>
    e.length == 12 && rsvdOk e 1 3 && (fieldAt e 0 1 == 2 || (fieldAt e 0 1 == 1 && rsvdOk e 8 4))
  if 1 ≤ l.length ∧ l.length ≤ 64 ∧ l.all ok then
    some (l.map fun e => { op := fieldAt e 0 1, addr := fieldAt e 4 4, value := BitVec.ofNat 32 (fieldAt e 8 4) })
  else none

/-- One operation: its status, its value, and the state. -/
def regOp (s : State) (o : RegMsg) : Nat × BitVec 32 × State :=
  let write := o.op == 2
  let acc := iniAccess .cox write
  if o.addr % 4 ≠ 0 ∨ targetOf s.variant o.addr ≠ some 98 then (St.accessFault, 0, s)
  else if (write && regClosed o.addr) || (!write && (o.addr == 0x000A002C || o.addr == 0x000A0030)) then
    (St.notAuthorised, 0, s)
  else if write && s.lcf.holdWater && !holdWrite s o.addr o.value then (St.holdWater, 0, s)
  else match apuRefuses s acc o.addr 4 with
    | some w => (St.accessFault, 0, apuRefused s acc w)
    | none =>
      if write then (0, 0, writeReg s o.addr o.value)
      else let (v, t) := readReg s o.addr; (0, v, t)

/-- The operations in order: their results. -/
def regOps (s : State) : List RegMsg → List Byte × State
  | [] => ([], s)
  | o :: rest =>
    let (st, v, s) := regOp s o
    let (b, s) := regOps (countStatus s none st) rest
    (leBytes 2 st ++ zeros 2 ++ leBytes 4 v.toNat ++ b, s)

/-- REG (R754, R755, R787). -/
def execReg (m : Mgmt) (payload : List Byte) (s : State) : Host.Outcome State Fault Refusal :=
  .next <| onMgmt s m true true fun s =>
    if blockEn s 0 0 = false then answer s m St.holdWater
    else match parseReg payload with
      | none => answer s m St.badFormat
      | some ops => let (b, s) := regOps s ops; answer s m 0 b

/-! ### Ceremonies -/

/-- `en` of the QRM (R444). -/
def qrmOn (s : State) : Bool := blockEn s 19 0

/-- Class, scope and body of a ceremony open; none where layout, lengths, reserved fields or a domain ID break Table 20.12, or
the layout of the class's body. -/
def parseOpen (b : List Byte) : Option (Nat × Nat × List Byte) :=
  let cls := fieldAt b 0 1
  let body := b.drop 16
  if 16 ≤ b.length ∧ b.length = 16 + fieldAt b 8 4 ∧ rsvdOk b 1 1 ∧ rsvdOk b 4 4 ∧ rsvdOk b 12 4 ∧ fieldAt b 2 2 ≤ 4096 ∧
      bodyForm cls body then
    some (cls, fieldAt b 2 2, body)
  else none

/-- CEREMONY_OPEN (R413, R414, R423, R619, R740): its draws are waited for (R530). -/
def ceremonyOpenMsg (m : Mgmt) (payload : List Byte) (s : State) : State :=
  onMgmt s m true true fun s =>
    match parseOpen payload with
    | none => answer s m St.badFormat
    | some (cls, scope, body) =>
      if qrmOn s = false then answer s m St.quorumRequired
      else if s.lcf.holdWater = true ∧ holdAllows s cls body = false then answer s m St.holdWater
      else if (scopeHas s scope cls && bodyOk s scope cls body) = false then answer s m St.paramInvalid
      else if cls = 9 ∧ prOp body = 2 ∧ roleOf s ≠ .active ∧ roleOf s ≠ .single then answer s m St.notAuthorised
      else match openCer s scope cls body with
        | none => sysWait { s with qrm := { s.qrm with
            opens := if s.qrm.opens.any (·.1 == m) then s.qrm.opens else s.qrm.opens ++ [(m, now s)] } } .qrm
        | some (c, more, s) =>
          let s := { s with qrm := { s.qrm with opens := s.qrm.opens.filter fun w => w.1 != m } }
          answer s m 0 (leBytes 4 c.number ++ leBytes 4 (cerWord c) ++ leBytes 8 c.close ++ cerDigest c ++ more)

/-- CEREMONY_OPEN: the message in its parts (Table 20.12). -/
def execCeremonyOpen (m : Mgmt) (cls scope len body : List Byte) (s : State) :
    Host.Outcome State Fault Refusal :=
  .next (ceremonyOpenMsg m (cls ++ scope ++ len ++ body) s)

/-- APPROVAL (R415 to R417, R421, R424). `peer` is what the other unit of a pair sends for R621. -/
def execApproval (m : Mgmt) (payload : List Byte) (peer : Option PairOffer) (s : State) : Host.Outcome State Fault Refusal :=
  .next <| onMgmt s m true true fun s =>
    let n := fieldAt payload 0 4
    match s.qrm.cers.find? fun c => c.number == n && c.state == .open && qrmOn s with
    | none => answer s m St.quorumRequired (cerAnswer s n [])
    | some c => match parseSubmission c payload with
      | none => answer s m St.badFormat (cerAnswer s n [])
      | some a =>
        let st := submissionCheck s c a
        if st ≠ 0 then
          let s := if st = St.notAuthorised ∨ st = St.authFail then countFailure s c.scope else s
          answer s m st (cerAnswer s n [])
        else
          let (e, v) := takeApproval s c a peer
          if e.wait then holdCer s n
          else
            let body := cerAnswer e.s n v ++ e.more
            let s := if e.status = 0 then answerCommit e.s m e.csn body else answer e.s m e.status body
            afterAnswer s n

/-- The ceremony takes input until its closing time: TR-34 entry, or a restore (R419, R757). -/
def takesInput (s : State) (c : Ceremony) : Bool :=
  (c.state == .open || c.state == .complete) && !c.inputDone && decide (s.mer.t < c.close) &&
    ((c.cls == 4 && (keKind c.body == 5 || keKind c.body == 6)) || (c.cls == 5 && fieldAt c.body 0 1 == 2))

/-- CEREMONY_INPUT_PART (R757): a COMPLETE ceremony is carried out at its final part (R432, R436). -/
def ceremonyInputPartMsg (m : Mgmt) (payload : List Byte) (s : State) : State :=
  onMgmt s m false true fun s =>
    let n := fieldAt payload 0 4
    let data := payload.drop 16
    if data.length = 0 ∨ 8176 < data.length ∨ rsvdOk payload 4 3 = false ∨ 1 < fieldAt payload 7 1 then answer s m St.badFormat
    else match s.qrm.cers.find? fun c => c.number == n && takesInput s c && qrmOn s with
      | none => answer s m St.quorumRequired
      | some c =>
        if fieldAt payload 8 8 ≠ c.input.length then answer s m St.notAuthorised
        else
          let c := { c with input := c.input ++ data, inputDone := fieldAt payload 7 1 == 1 }
          let t := modCer s n fun _ => c
          let e := if c.inputDone && c.state == .complete then carryOut t c none else { s := t }
          if e.wait then holdCer s n
          else
            let body := (cerAnswer e.s n []).take 8 ++ leBytes 8 c.input.length ++ e.more
            if e.status = 0 then answerCommit e.s m e.csn body else answer e.s m e.status body

/-- CEREMONY_INPUT_PART: the message in its parts (Table 20.12). -/
def execCeremonyInputPart (m : Mgmt) (number rsvd final off data : List Byte) (s : State) :
    Host.Outcome State Fault Refusal :=
  .next (ceremonyInputPartMsg m (number ++ rsvd ++ final ++ off ++ data) s)

/-- CEREMONY_OUTPUT_PART (R757). -/
def ceremonyOutputPartMsg (m : Mgmt) (payload : List Byte) (s : State) : State :=
  onMgmt s m false true fun s =>
    let off := fieldAt payload 8 8
    let len := fieldAt payload 16 4
    if payload.length ≠ 24 ∨ rsvdOk payload 4 4 = false ∨ rsvdOk payload 20 4 = false ∨ len = 0 ∨ 8192 < len then
      answer s m St.badFormat
    else match s.qrm.cers.find? fun c => c.number == fieldAt payload 0 4 with
      | none => answer s m St.quorumRequired
      | some c => answer s m 0 (slice c.output off (min len (c.output.length - off)))

/-- CEREMONY_OUTPUT_PART: the message in its parts (Table 20.12). -/
def execCeremonyOutputPart (m : Mgmt) (number off len : List Byte) (s : State) :
    Host.Outcome State Fault Refusal :=
  .next (ceremonyOutputPartMsg m (number ++ off ++ len) s)

/-- CEREMONY_STATUS. -/
def ceremonyStatusMsg (m : Mgmt) (payload : List Byte) (s : State) : State :=
  onMgmt s m true true fun s =>
    let scope := fieldAt payload 0 2
    if payload.length ≠ 8 ∨ 4096 < scope ∨ rsvdOk payload 3 5 = false then answer s m St.badFormat
    else match latestCer s scope (fieldAt payload 2 1) with
      | some c => answer s m 0 (leBytes 4 c.number ++ leBytes 4 (cerWord c) ++ leBytes 8 c.close)
      | none => answer s m 0 (zeros 16)

/-- CEREMONY_STATUS: the message in its parts (Table 20.12). -/
def execCeremonyStatus (m : Mgmt) (scope cls : List Byte) (s : State) :
    Host.Outcome State Fault Refusal :=
  .next (ceremonyStatusMsg m (scope ++ cls) s)

/-- CEREMONY_LAPSE (R419, R757): an OPEN ceremony and an authorisation not consumed lapse at the closing time; an output is
dropped 300 s after its ceremony was carried out. -/
def execCeremonyLapse (number : Nat) (s : State) : Host.Outcome State Fault Refusal :=
  .next <| match s.qrm.cers.find? fun c => c.number == number with
  | none => s
  | some c =>
    if s.mer.t < c.close then s
    else if c.state = .open ∨ (c.state = .complete ∧ c.reservedBy = none) then modCer s number fun c => c.lapse s.mer.t
    else if c.doneAt.any (fun t => decide (t + 300 * tickS ≤ now s)) then modCer s number fun c => { c with output := [] }
    else s

/-! ### Commit records (R758) -/

/-- Records back to back, each as long as its header says; none where the bytes do not divide so. -/
def splitRecs (b : List Byte) : Nat → Option (List (List Byte))
  | 0 => if b = [] then some [] else none
  | n + 1 =>
    if b = [] then some []
    else
      let len := fieldAt b 2 2
      if b.length < 16 ∨ len < 16 ∨ b.length < len then none
      else (splitRecs (b.drop len) n).map fun l => b.take len :: l

/-- Cox's chain in `reservedBy`: no item has this serial. -/
def coxSerial : Nat := 2 ^ 64

/-- One `JPUT` of Cox's transaction (R270, R315, R317, R418): its status and the records and ceremonies so far. -/
def coxPut (s : State) (b : List Byte) (t : Tx) : Nat × Tx × State :=
  if 1024 < b.length then (St.paramInvalid, t, s)
  else if Tx.fits t b.length = false then (St.journalLimit, t, s)
  else match parseJput b with
    | none => (St.paramInvalid, t, s)
    | some r =>
      let st := checkRecord s (cfgV s) r (txCfg s s.ksc.v t)
      if st ≠ 0 then
        (st, t, match r with
          | .imageLoad _ i _ _ => if st = St.imageRejected then alarmEvent s 26 i else s
          | _ => s)
      else if quorumOk s r = false then (St.quorumRequired, t, s)
      else
        let cer := (authorising s r).map (·.number)
        let s := match cer with
          | some n => modCer s n fun y => { y with reservedBy := some coxSerial }
          | none => s
        (0, { recs := t.recs ++ [{ tag := 0, recd := .conf r, size := b.length }], ceremonies := t.ceremonies ++ cer.toList }, s)

/-- The records in order, up to the first that fails. -/
def coxPuts (s : State) (t : Tx) : List (List Byte) → Nat × Tx × State
  | [] => (0, t, s)
  | b :: rest =>
    let (st, t, s) := coxPut s b t
    if st ≠ 0 then (st, t, s) else coxPuts s t rest

/-- COMMIT_RECORDS (R758): it waits while the key store takes no commits (R404). -/
def execCommitRecords (m : Mgmt) (payload : List Byte) (s : State) : Host.Outcome State Fault Refusal :=
  .next <| onMgmt s m false (serves s) fun s =>
    match (if payload = [] ∨ 4096 < payload.length then none else splitRecs payload 16) with
    | none => answer s m St.badFormat
    | some l => if kscOn s = false then s else
      let (st, t, s) := coxPuts s {} l
      if st ≠ 0 then answer (t.ceremonies.foldl (fun s n => modCer s n fun c => { c with reservedBy := none }) s) m st
      else
        let (r, s) := tryCommit s s.ksc.v (t.recs.map (·.recd)) t.ceremonies none
        if r.status ≠ 0 then answer s m r.status else answerCommit s m r.csn

/-! ### Uploads (R759) -/

/-- IMAGE_UPLOAD_PART: parts follow each other; a part at offset 0 starts anew. -/
def imageUploadPartMsg (m : Mgmt) (payload : List Byte) (s : State) : State :=
  onMgmt s m false true fun s =>
    let key := (fieldAt payload 0 2, fieldAt payload 4 4, fieldAt payload 8 4)
    let off := fieldAt payload 16 8
    let data := payload.drop 24
    let have_ := if off = 0 then [] else (alGet s.ksc.staging key).getD []
    if data.length = 0 ∨ 8168 < data.length ∨ 4096 < key.1 ∨ rsvdOk payload 2 2 = false ∨ rsvdOk payload 12 3 = false
        ∨ 1 < fieldAt payload 15 1 then
      answer s m St.badFormat
    else if off ≠ have_.length then answer s m St.notAuthorised
    else
      let all := have_ ++ data
      let k := if fieldAt payload 15 1 = 0 then { s.ksc with staging := alSet s.ksc.staging key all }
        else { s.ksc with staging := alDel s.ksc.staging key, staged := alSet s.ksc.staged key all }
      let s := { s with ksc := k }
      answer (if (alGet (cfgV s).images key).isSome then followImages s else s) m 0 (leBytes 8 all.length)

/-- IMAGE_UPLOAD_PART: the message in its parts (Table 20.12). -/
def execImageUploadPart (m : Mgmt) (dom image version final off data : List Byte) (s : State) :
    Host.Outcome State Fault Refusal :=
  .next (imageUploadPartMsg m (dom ++ image ++ version ++ final ++ off ++ data) s)

/-- The firmware image that uploaded bytes hold: its signature verifies under the Thapra firmware key and its body digest
matches (R742). -/
def firmwareOf (b : List Byte) : FwSlot :=
  let n := fieldAt b 16 4
  { valid := b.length == 64 + n + 4627 && fieldAt b 0 4 == 0x57465857 && decide (fieldAt b 8 1 ≤ 64 ∧ fieldAt b 9 1 ≤ 1)
      && rsvdOk b 10 6 && rsvdOk b 52 12 && sha3_256 (slice b 64 n) == slice b 20 32
      && mldsaVerifies 0x2A Config.thapraFirmwareKey [] (b.take 64) (b.drop (64 + n))
    version := fieldAt b 4 4, secVersion := fieldAt b 8 1, raiseFloor := bitOf (fieldAt b 9 1) 0 }

/-- The inactive slot holds an image. -/
def putFirmware (l : Lcf) (f : FwSlot) : Lcf := if l.slotB then { l with slotAFw := f } else { l with slotBFw := f }

/-- FIRMWARE_UPLOAD_PART: the inactive slot receives the image. -/
def firmwareUploadPartMsg (m : Mgmt) (payload : List Byte) (s : State) : State :=
  onMgmt s m true true fun s =>
    let off := fieldAt payload 8 8
    let data := payload.drop 16
    let have_ := if off = 0 then [] else s.lcf.fwStage
    if data.length = 0 ∨ 8176 < data.length ∨ rsvdOk payload 0 7 = false ∨ 1 < fieldAt payload 7 1 then answer s m St.badFormat
    else if off ≠ have_.length then answer s m St.notAuthorised
    else
      let all := have_ ++ data
      let l := if fieldAt payload 7 1 = 0 then { putFirmware s.lcf {} with fwStage := all }
        else { putFirmware s.lcf (firmwareOf all) with fwStage := [] }
      answer { s with lcf := l } m 0 (leBytes 8 all.length)

/-- FIRMWARE_UPLOAD_PART: the message in its parts (Table 20.12). -/
def execFirmwareUploadPart (m : Mgmt) (final off data : List Byte) (s : State) :
    Host.Outcome State Fault Refusal :=
  .next (firmwareUploadPartMsg m (final ++ off ++ data) s)

/-! ### The dual-signed challenge (R748, R749) -/

/-- The challenge may be issued: a life-cycle change that it authorises, or a debug level that may be granted. -/
def challengeOk (s : State) (purpose target : Nat) : Bool :=
  let lc := lcState s
  if purpose = 1 then
    mayTransit s && ((lc == .testLocked && target == 3) || ((lc == .provisioning || lc == .deployed) && target == 5)
      || (lc != .scrapped && lc != .invalid && target == 6))
  else purpose == 2 && blockEn s 21 0 && (target == 1 || target == 2)
    && (lc == .provisioning || lc == .deployed || lc == .rma)

/-- The nonce: 32 zero bytes while no DRBG is instantiated. -/
def challengeNonce (s : State) : Option (List Byte × State) :=
  if (vget s.rng.drbg s.variant.sysUnit {}).state = .unseeded then some (zeros 32, s) else sysDraw s .unit 32

/-- Reach of the challenge: a management session, or none in Hold-Water, where the dual-signed challenge remains (R732). -/
def challengeOn (s : State) (m : Mgmt) (f : State → State) : State :=
  if mgmtOn s m = true ∨ (s.lcf.holdWater = true ∧ s.lcf.romHold = false ∧ s.pwr.mainPower = true) then f s else s

/-- Answer to a challenge message: on its session, or as output. -/
def challengeAnswer (s : State) (m : Mgmt) (st : Nat) (b : List Byte) : State :=
  if mgmtOn s m then answer s m st b else emit s (.debug b)

/-- A message of an entry whose first byte names one of several operations: this command is operation `op` of `n`. Another
operation is another command, and one that the table does not list, or a payload whose layout breaks the table, is answered
`BAD_FORMAT`. -/
def onOperation (s : State) (payload : List Byte) (op n : Nat) (layout : Bool) (bad : State) (f : State → State) : State :=
  let o := fieldAt payload 0 1
  if payload = [] ∨ o = 0 ∨ n < o then bad
  else if o ≠ op then s
  else if layout then f s else bad

/-- CHALLENGE_ISSUE (R748). -/
def challengeIssueMsg (m : Mgmt) (payload : List Byte) (s : State) : State :=
  challengeOn s m fun s =>
    onOperation s payload 1 3 (payload.length == 8 && rsvdOk payload 3 5) (challengeAnswer s m St.badFormat []) fun s =>
      let purpose := fieldAt payload 1 1
      let target := fieldAt payload 2 1
      if challengeOk s purpose target = false then challengeAnswer s m St.notAuthorised []
      else match challengeNonce s with
        | none => sysWait s .unit
        | some (nonce, s) =>
          let n := (s.lcf.chalCnt + 1) % 2 ^ 32
          let c := leBytes 16 s.serial.toNat ++ leBytes 1 purpose ++ leBytes 1 target ++ zeros 2 ++ leBytes 4 s.bin.cycles
            ++ leBytes 4 n ++ nonce
          let s := { s with lcf := { s.lcf with chalCnt := n, challenge := some c, thapraOk := false, ownerOk := false } }
          challengeAnswer s m 0 c

/-- CHALLENGE_ISSUE: the message in its parts (Table 20.12). -/
def execChallengeIssue (m : Mgmt) (purpose target : List Byte) (s : State) :
    Host.Outcome State Fault Refusal :=
  .next (challengeIssueMsg m (purpose ++ target) s)

/-- What an accepted challenge authorises (R737, R749); no grant opens while `en` is 0 (R752). -/
def challengeEffect (s : State) (purpose target : Nat) : State :=
  if purpose = 2 then (if blockEn s 21 0 then grantDebug s target else s)
  else if mayTransit s = false then s
  else beginTransition s (match target with | 3 => 4 | 5 => 6 | _ => 7) 0

/-- The public key and the signature of a response. -/
def responsePk (payload : List Byte) : List Byte := slice payload 8 2592
def responseSig (payload : List Byte) : List Byte := slice payload 2600 4627

/-- A response: refused, awaiting the other signature, or accepted (Table 20.12). `keyOk` says whose key it must be. -/
def respond (s : State) (m : Mgmt) (payload : List Byte) (keyOk : List Byte → Bool) (mark : Lcf → Lcf) : State :=
  match s.lcf.challenge with
  | none => challengeAnswer s m 0 (leBytes 4 3)
  | some c =>
    let purpose := fieldAt c 16 1
    let target := fieldAt c 17 1
    let pk := responsePk payload
    if (keyOk (sha3_256 pk) && slice payload 1 2 == slice c 16 2 && mldsaVerifies 0x2A pk (ascii "WX-DUAL") c (responseSig payload))
        = false then
      challengeAnswer { s with dbg := { s.dbg with refused := satInc 65535 s.dbg.refused } } m 0 (leBytes 4 3)
    else
      let s := { s with lcf := mark s.lcf }
      if s.lcf.thapraOk = true ∧ (s.lcf.ownerOk = true ∨ (purpose = 1 ∧ target = 3)) then
        let s := { s with lcf := { s.lcf with challenge := none, thapraOk := false, ownerOk := false } }
        challengeEffect (challengeAnswer s m 0 (leBytes 4 2)) purpose target
      else challengeAnswer s m 0 (leBytes 4 1)

/-- Layout of a response. -/
def responseLayout (payload : List Byte) : Bool := payload.length == 7227 && rsvdOk payload 3 5

/-- THAPRA_RESPONSE (R748): the key's digest is the one in the boot ROM, and the signature verifies. -/
def thapraResponseMsg (m : Mgmt) (payload : List Byte) (s : State) : State :=
  challengeOn s m fun s =>
    onOperation s payload 2 3 (responseLayout payload) (challengeAnswer s m St.badFormat []) fun s =>
      respond s m payload (· == Config.thapraServiceDigest) fun l => { l with thapraOk := true }

/-- THAPRA_RESPONSE: the message in its parts (Table 20.12). -/
def execThapraResponse (m : Mgmt) (pk sig : List Byte) (s : State) :
    Host.Outcome State Fault Refusal :=
  .next (thapraResponseMsg m (pk ++ sig) s)

/-- OWNER_RESPONSE (R748): the key matches the owner key digest, and the signature verifies. -/
def ownerResponseMsg (m : Mgmt) (payload : List Byte) (s : State) : State :=
  challengeOn s m fun s =>
    onOperation s payload 3 3 (responseLayout payload) (challengeAnswer s m St.badFormat []) fun s =>
      respond s m payload (fun d => s.lcf.owner == some d) fun l => { l with ownerOk := true }

/-- OWNER_RESPONSE: the message in its parts (Table 20.12). -/
def execOwnerResponse (m : Mgmt) (pk sig : List Byte) (s : State) :
    Host.Outcome State Fault Refusal :=
  .next (ownerResponseMsg m (pk ++ sig) s)

/-! ### Diagnostics, restart and the rest (R759) -/

/-- Entry 11 with operation `op`. -/
def onDiagnostic (s : State) (m : MgmtMsg) (op : Nat) (f : State → State) : State :=
  onOperation s m.payload op 4 (m.payload.length == 8 && rsvdOk m.payload 1 7) (answer s m.on St.badFormat) f

/-- RESTART: a new start runs every stage again (R734). -/
def execRestart (m : MgmtMsg) (s : State) : Host.Outcome State Fault Refusal :=
  .next <| onMgmt s m.on true true fun s => onDiagnostic s m 1 fun s => beginStart (answer s m.on 0)

/-- Diagnostics run in Hold-Water where the failed stage is COX_BOOT or later (Table 19.5). -/
def diagnosable (s : State) : Bool := decide (3 ≤ s.lcf.stage)

/-- RERUN_SELF_TEST: results go to the Log. -/
def execRerunSelfTest (m : MgmtMsg) (r : SelfTest) (s : State) : Host.Outcome State Fault Refusal :=
  .next <| onMgmt s m.on (diagnosable s) false fun s => onDiagnostic s m 2 fun s =>
    answer (logOpen (applyTests s r) 0x20 1 [selfTestCode s r]) m.on 0

/-- DRAM_PATTERN_TEST. -/
def execDramPatternTest (m : MgmtMsg) (pass : Bool) (s : State) : Host.Outcome State Fault Refusal :=
  .next <| onMgmt s m.on (diagnosable s) false fun s => onDiagnostic s m 3 fun s =>
    answer (logOpen s 0x20 2 [b2n pass]) m.on 0

/-- NAND_READ_SCAN. -/
def execNandReadScan (m : MgmtMsg) (pass : Bool) (s : State) : Host.Outcome State Fault Refusal :=
  .next <| onMgmt s m.on (diagnosable s) false fun s => onDiagnostic s m 4 fun s =>
    answer (logOpen s 0x20 3 [b2n pass]) m.on 0

/-- CLOSE_SESSION (R759). -/
def execCloseSession (m : Mgmt) (payload : List Byte) (s : State) : Host.Outcome State Fault Refusal :=
  .next <| onMgmt s m false true fun s =>
    let sess := fieldAt payload 0 4
    if payload.length ≠ 8 ∨ rsvdOk payload 4 4 = false then answer s m St.badFormat
    else if (findSess s sess).any (·.live) then closeSess (answer s m 0) sess St.sessionExpired 17
    else answer s m St.paramInvalid

/-- OWNER_KEY_DIGEST (R741): once, in PROVISIONING. -/
def execOwnerKeyDigest (m : Mgmt) (payload : List Byte) (s : State) : Host.Outcome State Fault Refusal :=
  .next <| onMgmt s m false (lcState s == .provisioning && s.lcf.owner.isNone) fun s =>
    if payload.length ≠ 32 then answer s m St.badFormat
    else answer { s with lcf := { s.lcf with owner := some payload } } m 0

/-- DRBG_WAIT_TIMEOUT (R530): a consumer that has waited 100 µs for its DRBG (Table 13.3) is answered `RNG_UNAVAILABLE`. -/
def execDrbgWaitTimeout (w : DrbgWaiter) (s : State) : Host.Outcome State Fault Refusal :=
  .next <| match w with
  | .kgen c => timeOutKey s c fun p => p.op == .kgen && !drbgReady s (crewOf c)
  | .ksc c => timeOutKey s c fun _ => !sysReady s
  | .cipherJob e => timeOutCipher s e
  | .ceremony m =>
    if mgmtOn s m && !sysReady s && s.qrm.opens.any (fun w => w.1 == m && drawLate s w.2) then
      answer { s with qrm := { s.qrm with opens := s.qrm.opens.filter fun w => w.1 != m } } m St.rngUnavailable
    else s
  | .cerKey m n =>
    if mgmtOn s m && !sysReady s && (s.qrm.cers.any fun c => c.number == n && c.asked.any (drawLate s)) then
      let s := (failCer s n St.rngUnavailable).s
      afterAnswer (answer s m St.rngUnavailable (cerAnswer s n [])) n
    else s
  | .bneKey e => timeOutPool s.bne e s fun s j => endBne s e j St.rngUnavailable {} none
  | .lteKey e => timeOutPool s.lte e s fun s j => endLte s e j St.rngUnavailable {} none

end Sys2Proof.Machine
end

