-- ==== Sys2Proof/Machine/SmbOps.lean ====
section
/-! DEFINITION. The SMBus target (chapter 21, R801 to R804). -/

namespace Sys2Proof.Machine

/-- The target serves: 100 ms after VMAIN came into range, in every start stage and in Hold-Water (R801). -/
def smbServes (s : State) : Bool := s.pwr.vmainOk && decide (s.pwr.vmainAt + 100 * tickMs ≤ now s)

/-- One bit of the packet error code of SMBus 3.x, polynomial x⁸ + x² + x + 1. -/
def pecBit (r : BitVec 8) : BitVec 8 := if r.msb then (r <<< 1) ^^^ 0x07 else r <<< 1

/-- Packet error code of a message (R801). -/
def pec (l : List Byte) : Byte :=
  l.foldl (fun r b => pecBit (pecBit (pecBit (pecBit (pecBit (pecBit (pecBit (pecBit (r ^^^ b))))))))) 0

/-- First byte of a message to the target: its 7-bit address 0x40 + SLOT_ID, and the direction (R801). -/
def smbAddr (s : State) (read : Bool) : Byte := BitVec.ofNat 8 (2 * (0x40 + s.slotId.toNat) + b2n read)

/-- Data of a block read of Table 21.7. `x`, `y` and `external` are the measured inputs of the commands that show them. -/
def smbData (s : State) (cmd : Nat) (x y : Nat) (external : Bool) : List Byte :=
  if cmd = 1 then
    leBytes 1 (match s.variant with | .wx7480 => 0x80 | .wx7440 => 0x40) ++ leBytes 1 (if s.suffixE then 0x45 else 0x43)
      ++ leBytes 1 (lcState s).code ++ leBytes 1 s.lcf.stage ++ leBytes 2 s.lcf.failure ++ leBytes 1 s.prl.state.code
      ++ leBytes 1 s.pwr.effective
  else if cmd = 2 then leBytes 2 x ++ leBytes 2 y ++ leBytes 2 s.pwr.inputDw
  else if cmd = 3 then leBytes 1 x ++ leBytes 1 y ++ leBytes 1 (twos s.bin.temp) ++ zeros 1
  else if cmd = 4 then
    leBytes 2 s.bin.vbat ++ leBytes 1 (b2n (vget s.bin.sources 13 {}).active + 2 * b2n external) ++ zeros 1
  else if cmd = 5 then leBytes 3 (s.log.optime / 3600) ++ leBytes 3 s.bin.cycles
  else []

/-- FRU data of the unit, 32 bytes from 32 × `off` (R803; log 15). -/
def fruBytes (s : State) (off : Nat) : List Byte :=
  (List.range 32).map fun i => Config.crypto .fru
    [leBytes 16 s.serial.toNat, leBytes 1 (match s.variant with | .wx7480 => 0x80 | .wx7440 => 0x40),
     leBytes 1 (if s.suffixE then 0x45 else 0x43)] (32 * off + i)

/-- The packet error code that a controller sent after its written bytes, if it sent one, fits them (R801). -/
def codeOk (s : State) (code : Option Byte) (req : List Byte) : Bool := code.all (· == pec (smbAddr s false :: req))

/-- The target answers: the count, the data and the packet error code over the whole message; or it does not acknowledge
a request whose own code fails (R801). `req` holds the bytes that the controller wrote. -/
def smbAnswer (s : State) (code : Option Byte) (req data : List Byte) : State :=
  if smbServes s = false then s
  else if codeOk s code req = false then emit s .smbNack
  else
    let count := leBytes 1 data.length
    emit s (.smb (count ++ data ++ [pec (smbAddr s false :: req ++ smbAddr s true :: count ++ data)]))

/-- A block read of commands 0x01 to 0x05. -/
def smbRead (s : State) (code : Option Byte) (cmd x y : Nat) (external : Bool) : State :=
  smbAnswer s code (leBytes 1 cmd) (smbData s cmd x y external)

/-- SMB_IDENTITY (Table 21.7). -/
def execSmbIdentity (code : Option Byte) (s : State) : Host.Outcome State Fault Refusal := .next (smbRead s code 1 0 0 false)

/-- SMB_POWER (Table 21.7): VMAIN and the input current as measured. -/
def execSmbPower (code : Option Byte) (mv ma : Nat) (s : State) : Host.Outcome State Fault Refusal :=
  .next (smbRead s code 2 mv ma false)

/-- SMB_TEMPERATURE (Table 21.7): the die maximum and the cold-plate face as measured. -/
def execSmbTemperature (code : Option Byte) (die face : Int) (s : State) : Host.Outcome State Fault Refusal :=
  .next (smbRead s code 3 (twos die) (twos face) false)

/-- SMB_CELL (Table 21.7). -/
def execSmbCell (code : Option Byte) (external : Bool) (s : State) : Host.Outcome State Fault Refusal :=
  .next (smbRead s code 4 0 0 external)

/-- SMB_USAGE (Table 21.7). -/
def execSmbUsage (code : Option Byte) (s : State) : Host.Outcome State Fault Refusal := .next (smbRead s code 5 0 0 false)

/-- SMB_FRU (R802, R803): a process call with one written byte, the offset 0 to 31; another offset is not acknowledged. -/
def execSmbFru (code : Option Byte) (off : Nat) (s : State) : Host.Outcome State Fault Refusal :=
  .next <|
    if off < 32 then smbAnswer s code (leBytes 1 0x10 ++ leBytes 1 1 ++ leBytes 1 off) (fruBytes s off)
    else if smbServes s then emit s .smbNack else s

/-- ALERT_RESPONSE_READ (R802, R804): the target answers its address and releases ALERT_N. -/
def execAlertResponseRead (s : State) : Host.Outcome State Fault Refusal :=
  .next <|
    if smbServes s = true ∧ s.smb.alert = true then
      emit { s with smb := { s.smb with alert := false } } (.smb [smbAddr s false, pec [0x19, smbAddr s false]])
    else s

/-- SMBUS_TIMEOUT (R802): the bus interface, which holds no state between transactions, resets. -/
def execSmbusTimeout (s : State) : Host.Outcome State Fault Refusal := .next s

/-- SMBUS_WRITE (R802): a write, or a command that Table 21.7 does not list, is not acknowledged and is discarded. -/
def execSmbusWrite (_cmd : Nat) (s : State) : Host.Outcome State Fault Refusal :=
  .next (if smbServes s then emit s .smbNack else s)

end Sys2Proof.Machine
end

