-- ==== Sys2Proof/Machine/Dispatch.lean ====
section
/-! DEFINITION. One arm for each command, in the table's order. -/

namespace Sys2Proof.Machine

/-- The effect of a command on everything but the queue. -/
def exec (i : Instr) (s : State) : Host.Outcome State Fault Refusal :=
  match i with
  | .add i0 d a b => Sys2Proof.Machine.execAdd i0 d a b s
  | .sub i0 d a b => Sys2Proof.Machine.execSub i0 d a b s
  | .and i0 d a b => Sys2Proof.Machine.execAnd i0 d a b s
  | .or i0 d a b => Sys2Proof.Machine.execOr i0 d a b s
  | .xor i0 d a b => Sys2Proof.Machine.execXor i0 d a b s
  | .andn i0 d a b => Sys2Proof.Machine.execAndn i0 d a b s
  | .orn i0 d a b => Sys2Proof.Machine.execOrn i0 d a b s
  | .xnor i0 d a b => Sys2Proof.Machine.execXnor i0 d a b s
  | .sll i0 d a b => Sys2Proof.Machine.execSll i0 d a b s
  | .srl i0 d a b => Sys2Proof.Machine.execSrl i0 d a b s
  | .sra i0 d a b => Sys2Proof.Machine.execSra i0 d a b s
  | .rol i0 d a b => Sys2Proof.Machine.execRol i0 d a b s
  | .ror i0 d a b => Sys2Proof.Machine.execRor i0 d a b s
  | .slt i0 d a b => Sys2Proof.Machine.execSlt i0 d a b s
  | .sltu i0 d a b => Sys2Proof.Machine.execSltu i0 d a b s
  | .min i0 d a b => Sys2Proof.Machine.execMin i0 d a b s
  | .max i0 d a b => Sys2Proof.Machine.execMax i0 d a b s
  | .minu i0 d a b => Sys2Proof.Machine.execMinu i0 d a b s
  | .maxu i0 d a b => Sys2Proof.Machine.execMaxu i0 d a b s
  | .clz i0 d a => Sys2Proof.Machine.execClz i0 d a s
  | .ctz i0 d a => Sys2Proof.Machine.execCtz i0 d a s
  | .popc i0 d a => Sys2Proof.Machine.execPopc i0 d a s
  | .bswap i0 d a => Sys2Proof.Machine.execBswap i0 d a s
  | .bswapw i0 d a => Sys2Proof.Machine.execBswapw i0 d a s
  | .bswaph i0 d a => Sys2Proof.Machine.execBswaph i0 d a s
  | .sextb i0 d a => Sys2Proof.Machine.execSextb i0 d a s
  | .sexth i0 d a => Sys2Proof.Machine.execSexth i0 d a s
  | .sextw i0 d a => Sys2Proof.Machine.execSextw i0 d a s
  | .zextw i0 d a => Sys2Proof.Machine.execZextw i0 d a s
  | .mul i0 d a b => Sys2Proof.Machine.execMul i0 d a b s
  | .mulh i0 d a b => Sys2Proof.Machine.execMulh i0 d a b s
  | .mulhu i0 d a b => Sys2Proof.Machine.execMulhu i0 d a b s
  | .mulhsu i0 d a b => Sys2Proof.Machine.execMulhsu i0 d a b s
  | .div i0 d a b => Sys2Proof.Machine.execDiv i0 d a b s
  | .divu i0 d a b => Sys2Proof.Machine.execDivu i0 d a b s
  | .rem i0 d a b => Sys2Proof.Machine.execRem i0 d a b s
  | .remu i0 d a b => Sys2Proof.Machine.execRemu i0 d a b s
  | .addi i0 d a p v => Sys2Proof.Machine.execAddi i0 d a p v s
  | .andi i0 d a p v => Sys2Proof.Machine.execAndi i0 d a p v s
  | .ori i0 d a p v => Sys2Proof.Machine.execOri i0 d a p v s
  | .xori i0 d a p v => Sys2Proof.Machine.execXori i0 d a p v s
  | .slti i0 d a p v => Sys2Proof.Machine.execSlti i0 d a p v s
  | .sltiu i0 d a p v => Sys2Proof.Machine.execSltiu i0 d a p v s
  | .lih i0 d a p v => Sys2Proof.Machine.execLih i0 d a p v s
  | .slli i0 d a n => Sys2Proof.Machine.execSlli i0 d a n s
  | .srli i0 d a n => Sys2Proof.Machine.execSrli i0 d a n s
  | .srai i0 d a n => Sys2Proof.Machine.execSrai i0 d a n s
  | .rori i0 d a n => Sys2Proof.Machine.execRori i0 d a n s
  | .ldb i0 sp d a p off m => Sys2Proof.Machine.execLdb i0 sp d a p off m s
  | .ldh i0 sp d a p off m => Sys2Proof.Machine.execLdh i0 sp d a p off m s
  | .ldw i0 sp d a p off m => Sys2Proof.Machine.execLdw i0 sp d a p off m s
  | .ldd i0 sp d a p off m => Sys2Proof.Machine.execLdd i0 sp d a p off m s
  | .stb i0 sp d a p off => Sys2Proof.Machine.execStb i0 sp d a p off s
  | .sth i0 sp d a p off => Sys2Proof.Machine.execSth i0 sp d a p off s
  | .stw i0 sp d a p off => Sys2Proof.Machine.execStw i0 sp d a p off s
  | .std i0 sp d a p off => Sys2Proof.Machine.execStd i0 sp d a p off s
  | .beq i0 a b p off => Sys2Proof.Machine.execBeq i0 a b p off s
  | .bne i0 a b p off => Sys2Proof.Machine.execBne i0 a b p off s
  | .blt i0 a b p off => Sys2Proof.Machine.execBlt i0 a b p off s
  | .bge i0 a b p off => Sys2Proof.Machine.execBge i0 a b p off s
  | .bltu i0 a b p off => Sys2Proof.Machine.execBltu i0 a b p off s
  | .bgeu i0 a b p off => Sys2Proof.Machine.execBgeu i0 a b p off s
  | .j i0 off => Sys2Proof.Machine.execJ i0 off s
  | .call i0 off => Sys2Proof.Machine.execCall i0 off s
  | .jr i0 a => Sys2Proof.Machine.execJr i0 a s
  | .callr i0 a => Sys2Proof.Machine.execCallr i0 a s
  | .ret i0 => Sys2Proof.Machine.execRet i0 s
  | .nop i0 => Sys2Proof.Machine.execNop i0 s
  | .loop i0 a e => Sys2Proof.Machine.execLoop i0 a e s
  | .stat i0 d idx => Sys2Proof.Machine.execStat i0 d idx s
  | .csrr i0 d a => Sys2Proof.Machine.execCsrr i0 d a s
  | .csrw i0 a b => Sys2Proof.Machine.execCsrw i0 a b s
  | .strokeBudgetExhausted c => Sys2Proof.Machine.execStrokeBudgetExhausted c s
  | .kload i0 kd gs g => Sys2Proof.Machine.execKload i0 kd gs g s
  | .kgen i0 kd gs g => Sys2Proof.Machine.execKgen i0 kd gs g s
  | .kderive i0 kd ka gs g => Sys2Proof.Machine.execKderive i0 kd ka gs g s
  | .kwrap i0 kd ka gs g => Sys2Proof.Machine.execKwrap i0 kd ka gs g s
  | .kunwrap i0 kd ka gs g => Sys2Proof.Machine.execKunwrap i0 kd ka gs g s
  | .kattrRead i0 ka gs g => Sys2Proof.Machine.execKattrRead i0 ka gs g s
  | .kattrRestrict i0 ka gs g => Sys2Proof.Machine.execKattrRestrict i0 ka gs g s
  | .kattrDelete i0 ka gs g => Sys2Proof.Machine.execKattrDelete i0 ka gs g s
  | .kdrop i0 ka => Sys2Proof.Machine.execKdrop i0 ka s
  | .keyInstrComplete c => Sys2Proof.Machine.execKeyInstrComplete c s
  | .keyCacheMissFill c m => Sys2Proof.Machine.execKeyCacheMissFill c m s
  | .ciph i0 ka gs g => Sys2Proof.Machine.execCiph i0 ka gs g s
  | .macv i0 ka gs g => Sys2Proof.Machine.execMacv i0 ka gs g s
  | .kmac i0 ka gs g => Sys2Proof.Machine.execKmac i0 ka gs g s
  | .hash i0 d a => Sys2Proof.Machine.execHash i0 d a s
  | .pkcallKeyed i0 ka gs g => Sys2Proof.Machine.execPkcallKeyed i0 ka gs g s
  | .pkcallPublic i0 gs g => Sys2Proof.Machine.execPkcallPublic i0 gs g s
  | .ltcallKeyed i0 ka gs g => Sys2Proof.Machine.execLtcallKeyed i0 ka gs g s
  | .ltcallPublic i0 gs g => Sys2Proof.Machine.execLtcallPublic i0 gs g s
  | .reply i0 a => Sys2Proof.Machine.execReply i0 a s
  | .done i0 => Sys2Proof.Machine.execDone i0 s
  | .cont i0 a b => Sys2Proof.Machine.execCont i0 a b s
  | .post i0 d a => Sys2Proof.Machine.execPost i0 d a s
  | .delay i0 d a b => Sys2Proof.Machine.execDelay i0 d a b s
  | .jbegin i0 d => Sys2Proof.Machine.execJbegin i0 d s
  | .jput i0 d a b => Sys2Proof.Machine.execJput i0 d a b s
  | .jcommit i0 d => Sys2Proof.Machine.execJcommit i0 d s
  | .jabort i0 => Sys2Proof.Machine.execJabort i0 s
  | .wait i0 d a => Sys2Proof.Machine.execWait i0 d a s
  | .cvset i0 d a b => Sys2Proof.Machine.execCvset i0 d a b s
  | .cvupd i0 d a b => Sys2Proof.Machine.execCvupd i0 d a b s
  | .cvget i0 d a => Sys2Proof.Machine.execCvget i0 d a s
  | .cvput i0 d a b => Sys2Proof.Machine.execCvput i0 d a b s
  | .rng i0 d a b => Sys2Proof.Machine.execRng i0 d a b s
  | .rngWaitTimeout c => Sys2Proof.Machine.execRngWaitTimeout c s
  | .time i0 d => Sys2Proof.Machine.execTime i0 d s
  | .serviceResultReady c d => Sys2Proof.Machine.execServiceResultReady c d s
  | .issueCheckFailComplete ticket => Sys2Proof.Machine.execIssueCheckFailComplete ticket s
  | .cipherJobStart k e => Sys2Proof.Machine.execCipherJobStart k e s
  | .cipherJobComplete e => Sys2Proof.Machine.execCipherJobComplete e s
  | .engineJobYield k e => Sys2Proof.Machine.execEngineJobYield k e s
  | .engineJobResume k e => Sys2Proof.Machine.execEngineJobResume k e s
  | .hashJobComplete e => Sys2Proof.Machine.execHashJobComplete e s
  | .cvupdJobComplete u => Sys2Proof.Machine.execCvupdJobComplete u s
  | .engineFaultDetected k e => Sys2Proof.Machine.execEngineFaultDetected k e s
  | .engineRecoveryDone k e pass => Sys2Proof.Machine.execEngineRecoveryDone k e pass s
  | .cphKatRun k e => Sys2Proof.Machine.execCphKatRun k e s
  | .poolScreenFailComplete ticket => Sys2Proof.Machine.execPoolScreenFailComplete ticket s
  | .bneJobLoad => Sys2Proof.Machine.execBneJobLoad s
  | .bneJobStart e => Sys2Proof.Machine.execBneJobStart e s
  | .bneRngTimeout e => Sys2Proof.Machine.execBneRngTimeout e s
  | .bneJobComplete e slotsOk invariantOk => Sys2Proof.Machine.execBneJobComplete e slotsOk invariantOk s
  | .bneFaultDetected e => Sys2Proof.Machine.execBneFaultDetected e s
  | .bneRecoveryDone e pass => Sys2Proof.Machine.execBneRecoveryDone e pass s
  | .bneKatRun e => Sys2Proof.Machine.execBneKatRun e s
  | .slotLengthChange e => Sys2Proof.Machine.execSlotLengthChange e s
  | .lteJobLoad => Sys2Proof.Machine.execLteJobLoad s
  | .lteJobStart e => Sys2Proof.Machine.execLteJobStart e s
  | .lteRngTimeout e => Sys2Proof.Machine.execLteRngTimeout e s
  | .lteJobComplete e iterations invariantOk => Sys2Proof.Machine.execLteJobComplete e iterations invariantOk s
  | .signIterationLimit e => Sys2Proof.Machine.execSignIterationLimit e s
  | .lteFaultDetected e => Sys2Proof.Machine.execLteFaultDetected e s
  | .lteRecoveryDone e pass => Sys2Proof.Machine.execLteRecoveryDone e pass s
  | .lteKatRun e => Sys2Proof.Machine.execLteKatRun e s
  | .cacheFlush e => Sys2Proof.Machine.execCacheFlush e s
  | .expandedKeyAgeOut e => Sys2Proof.Machine.execExpandedKeyAgeOut e s
  | .requestRecord sess hdr payload stamp => Sys2Proof.Machine.execRequestRecord sess hdr payload stamp s
  | .dispatch crew => Sys2Proof.Machine.execDispatch crew s
  | .delayListRelease => Sys2Proof.Machine.execDelayListRelease s
  | .coarseBucketMove => Sys2Proof.Machine.execCoarseBucketMove s
  | .continuationMatch ticket => Sys2Proof.Machine.execContinuationMatch ticket s
  | .classCreditReset => Sys2Proof.Machine.execClassCreditReset s
  | .tokenRefill i0 => Sys2Proof.Machine.execTokenRefill i0 s
  | .traceClear => Sys2Proof.Machine.execTraceClear s
  | .commitDurable => Sys2Proof.Machine.execCommitDurable s
  | .commitVisible => Sys2Proof.Machine.execCommitVisible s
  | .recordAreaApply => Sys2Proof.Machine.execRecordAreaApply s
  | .remaskVisit entry => Sys2Proof.Machine.execRemaskVisit entry s
  | .remaskLate => Sys2Proof.Machine.execRemaskLate s
  | .keyMaterialOverwrite n => Sys2Proof.Machine.execKeyMaterialOverwrite n s
  | .nandBlockErase block => Sys2Proof.Machine.execNandBlockErase block s
  | .nandBlockRetire => Sys2Proof.Machine.execNandBlockRetire s
  | .domainErasureComplete d => Sys2Proof.Machine.execDomainErasureComplete d s
  | .domainCreate d => Sys2Proof.Machine.execDomainCreate d s
  | .domainDelete d => Sys2Proof.Machine.execDomainDelete d s
  | .instanceCreate i0 d sh => Sys2Proof.Machine.execInstanceCreate i0 d sh s
  | .instanceDelete i0 => Sys2Proof.Machine.execInstanceDelete i0 s
  | .administrativeState i0 enable => Sys2Proof.Machine.execAdministrativeState i0 enable s
  | .shareChange i0 sh => Sys2Proof.Machine.execShareChange i0 sh s
  | .queueConfigure q b => Sys2Proof.Machine.execQueueConfigure q b s
  | .queueRemove q => Sys2Proof.Machine.execQueueRemove q s
  | .officerSet scope l => Sys2Proof.Machine.execOfficerSet scope l s
  | .policy scope l => Sys2Proof.Machine.execPolicy scope l s
  | .domainSettings scope x => Sys2Proof.Machine.execDomainSettings scope x s
  | .usagePolicyEntry scope u => Sys2Proof.Machine.execUsagePolicyEntry scope u s
  | .imageLoad d image version digest => Sys2Proof.Machine.execImageLoad d image version digest s
  | .imageUnload d image version => Sys2Proof.Machine.execImageUnload d image version s
  | .bind d q image version => Sys2Proof.Machine.execBind d q image version s
  | .unbind d q => Sys2Proof.Machine.execUnbind d q s
  | .raiseVersionFloor d image floor => Sys2Proof.Machine.execRaiseVersionFloor d image floor s
  | .profileRecord p => Sys2Proof.Machine.execProfileRecord p s
  | .insCmdReset i0 => Sys2Proof.Machine.execInsCmdReset i0 s
  | .insCmdClear i0 => Sys2Proof.Machine.execInsCmdClear i0 s
  | .handlingQueueServe i0 => Sys2Proof.Machine.execHandlingQueueServe i0 s
  | .faultWindowBoundary i0 => Sys2Proof.Machine.execFaultWindowBoundary i0 s
  | .quiesceLimitExpiry i0 => Sys2Proof.Machine.execQuiesceLimitExpiry i0 s
  | .instanceQuiesced i0 => Sys2Proof.Machine.execInstanceQuiesced i0 s
  | .drainComplete i0 => Sys2Proof.Machine.execDrainComplete i0 s
  | .meridianTick slew => Sys2Proof.Machine.execMeridianTick slew s
  | .ptpSync h logInterval twoStep seq origin lead filtered => Sys2Proof.Machine.execPtpSync h logInterval twoStep seq origin lead filtered s
  | .ptpAnnounce h a => Sys2Proof.Machine.execPtpAnnounce h a s
  | .ptpFollowUp h seq origin filtered => Sys2Proof.Machine.execPtpFollowUp h seq origin filtered s
  | .ptpDelayResp h received => Sys2Proof.Machine.execPtpDelayResp h received s
  | .ptpOtherMessage h => Sys2Proof.Machine.execPtpOtherMessage h s
  | .announceReceiptTimeout => Sys2Proof.Machine.execAnnounceReceiptTimeout s
  | .sourceQualificationLoss => Sys2Proof.Machine.execSourceQualificationLoss s
  | .mppsEdge offsetNs => Sys2Proof.Machine.execMppsEdge offsetNs s
  | .forwardStep => Sys2Proof.Machine.execForwardStep s
  | .rtcSet => Sys2Proof.Machine.execRtcSet s
  | .healthTestFailure src samples => Sys2Proof.Machine.execHealthTestFailure src samples s
  | .startupTestComplete src early late => Sys2Proof.Machine.execStartupTestComplete src early late s
  | .seedProduced => Sys2Proof.Machine.execSeedProduced s
  | .drbgInstantiate => Sys2Proof.Machine.execDrbgInstantiate s
  | .drbgReseed n => Sys2Proof.Machine.execDrbgReseed n s
  | .rngDataLoRead ini => Sys2Proof.Machine.execRngDataLoRead ini s
  | .dataRegisterRefill => Sys2Proof.Machine.execDataRegisterRefill s
  | .hello f shares => Sys2Proof.Machine.execHello f shares s
  | .confirm f sig => Sys2Proof.Machine.execConfirm f sig s
  | .dataFrame f => Sys2Proof.Machine.execDataFrame f s
  | .ackFrame f => Sys2Proof.Machine.execAckFrame f s
  | .rekeyAck f => Sys2Proof.Machine.execRekeyAck f s
  | .close f => Sys2Proof.Machine.execClose f s
  | .resync f => Sys2Proof.Machine.execResync f s
  | .beaconQ f => Sys2Proof.Machine.execBeaconQ f s
  | .arpRequest at_ addr => Sys2Proof.Machine.execArpRequest at_ addr s
  | .neighbourSolicitation at_ addr => Sys2Proof.Machine.execNeighbourSolicitation at_ addr s
  | .icmpEcho at_ addr v6 => Sys2Proof.Machine.execIcmpEcho at_ addr v6 s
  | .rekeyTrigger sess => Sys2Proof.Machine.execRekeyTrigger sess s
  | .generationLimit sess => Sys2Proof.Machine.execGenerationLimit sess s
  | .oldKeyErase sess => Sys2Proof.Machine.execOldKeyErase sess s
  | .rtoExpiry sess seq => Sys2Proof.Machine.execRtoExpiry sess seq s
  | .ackDelayExpiry sess => Sys2Proof.Machine.execAckDelayExpiry sess s
  | .keepalive sess => Sys2Proof.Machine.execKeepalive sess s
  | .idleExpiry sess => Sys2Proof.Machine.execIdleExpiry sess s
  | .halfOpenExpiry sess => Sys2Proof.Machine.execHalfOpenExpiry sess s
  | .closeTimeout sess => Sys2Proof.Machine.execCloseTimeout sess s
  | .quarantineExpiry sess => Sys2Proof.Machine.execQuarantineExpiry sess s
  | .retentionRemoval sess reqId => Sys2Proof.Machine.execRetentionRemoval sess reqId s
  | .cookieEpochChange => Sys2Proof.Machine.execCookieEpochChange s
  | .addressAnnounce port => Sys2Proof.Machine.execAddressAnnounce port s
  | .reg m payload => Sys2Proof.Machine.execReg m payload s
  | .ceremonyOpen m cls scope len body => Sys2Proof.Machine.execCeremonyOpen m cls scope len body s
  | .approval m payload peer => Sys2Proof.Machine.execApproval m payload peer s
  | .ceremonyInputPart m number rsvd final off data => Sys2Proof.Machine.execCeremonyInputPart m number rsvd final off data s
  | .ceremonyOutputPart m number off len => Sys2Proof.Machine.execCeremonyOutputPart m number off len s
  | .ceremonyStatus m scope cls => Sys2Proof.Machine.execCeremonyStatus m scope cls s
  | .commitRecords m payload => Sys2Proof.Machine.execCommitRecords m payload s
  | .imageUploadPart m dom image version final off data => Sys2Proof.Machine.execImageUploadPart m dom image version final off data s
  | .firmwareUploadPart m final off data => Sys2Proof.Machine.execFirmwareUploadPart m final off data s
  | .challengeIssue m purpose target => Sys2Proof.Machine.execChallengeIssue m purpose target s
  | .thapraResponse m pk sig => Sys2Proof.Machine.execThapraResponse m pk sig s
  | .ownerResponse m pk sig => Sys2Proof.Machine.execOwnerResponse m pk sig s
  | .restart m => Sys2Proof.Machine.execRestart m s
  | .rerunSelfTest m r => Sys2Proof.Machine.execRerunSelfTest m r s
  | .dramPatternTest m pass => Sys2Proof.Machine.execDramPatternTest m pass s
  | .nandReadScan m pass => Sys2Proof.Machine.execNandReadScan m pass s
  | .closeSession m payload => Sys2Proof.Machine.execCloseSession m payload s
  | .ownerKeyDigest m payload => Sys2Proof.Machine.execOwnerKeyDigest m payload s
  | .ceremonyLapse number => Sys2Proof.Machine.execCeremonyLapse number s
  | .heartbeat p x => Sys2Proof.Machine.execHeartbeat p x s
  | .commit p c digest => Sys2Proof.Machine.execCommit p c digest s
  | .commitAck p csn => Sys2Proof.Machine.execCommitAck p csn s
  | .anchor p a => Sys2Proof.Machine.execAnchor p a s
  | .retain p r reply remove => Sys2Proof.Machine.execRetain p r reply remove s
  | .quarantine p sess start => Sys2Proof.Machine.execQuarantine p sess start s
  | .compare p sess reqId snap digest m => Sys2Proof.Machine.execCompare p sess reqId snap digest m s
  | .sampleRun of on => Sys2Proof.Machine.execSampleRun of on s
  | .compareResult p sess reqId matched => Sys2Proof.Machine.execCompareResult p sess reqId matched s
  | .arbitrate p sess reqId digest same coresPass enginesPass => Sys2Proof.Machine.execArbitrate p sess reqId digest same coresPass enginesPass s
  | .diverge p l all => Sys2Proof.Machine.execDiverge p l all s
  | .join p top below => Sys2Proof.Machine.execJoin p top below s
  | .catchup p cs full => Sys2Proof.Machine.execCatchup p cs full s
  | .handback p second => Sys2Proof.Machine.execHandback p second s
  | .handover p items => Sys2Proof.Machine.execHandover p items s
  | .yield_ p => Sys2Proof.Machine.execYield p s
  | .heartbeatSend => Sys2Proof.Machine.execHeartbeatSend s
  | .plpRetransmit => Sys2Proof.Machine.execPlpRetransmit s
  | .linkLoss => Sys2Proof.Machine.execLinkLoss s
  | .pairAliveInDeassert => Sys2Proof.Machine.execPairAliveInDeassert s
  | .linkWaitLog => Sys2Proof.Machine.execLinkWaitLog s
  | .fenceWatchdogExpiry => Sys2Proof.Machine.execFenceWatchdogExpiry s
  | .joinWaitExpiry peer => Sys2Proof.Machine.execJoinWaitExpiry peer s
  | .holdoffExpiry => Sys2Proof.Machine.execHoldoffExpiry s
  | .handbackSecond => Sys2Proof.Machine.execHandbackSecond s
  | .yieldReq => Sys2Proof.Machine.execYieldReq s
  | .regionSweepComplete => Sys2Proof.Machine.execRegionSweepComplete s
  | .masterRekeyPeriod => Sys2Proof.Machine.execMasterRekeyPeriod s
  | .masterRekey => Sys2Proof.Machine.execMasterRekey s
  | .masterRekeyComplete => Sys2Proof.Machine.execMasterRekeyComplete s
  | .regionRebuildComplete => Sys2Proof.Machine.execRegionRebuildComplete s
  | .fullRebuildComplete ok => Sys2Proof.Machine.execFullRebuildComplete ok s
  | .apuCommit => Sys2Proof.Machine.execApuCommit s
  | .apuCommitComplete => Sys2Proof.Machine.execApuCommitComplete s
  | .debugAccess addr len write data => Sys2Proof.Machine.execDebugAccess addr len write data s
  | .etmpLoopFail n samples => Sys2Proof.Machine.execEtmpLoopFail n samples s
  | .caseOpen n => Sys2Proof.Machine.execCaseOpen n s
  | .mesh loops => Sys2Proof.Machine.execMesh loops s
  | .battLow mv => Sys2Proof.Machine.execBattLow mv s
  | .battCrit mv => Sys2Proof.Machine.execBattCrit mv s
  | .binTemp celsius => Sys2Proof.Machine.execBinTemp celsius s
  | .supply detail => Sys2Proof.Machine.execSupply detail s
  | .clock monitor => Sys2Proof.Machine.execClock monitor s
  | .dieHot celsius => Sys2Proof.Machine.execDieHot celsius s
  | .dieCold celsius => Sys2Proof.Machine.execDieCold celsius s
  | .light mask => Sys2Proof.Machine.execLight mask s
  | .shield segment => Sys2Proof.Machine.execShield segment s
  | .throttleEnd => Sys2Proof.Machine.execThrottleEnd s
  | .evidenceProgram ok => Sys2Proof.Machine.execEvidenceProgram ok s
  | .backupCellConnect mv => Sys2Proof.Machine.execBackupCellConnect mv s
  | .pwrGoodAssert => Sys2Proof.Machine.execPwrGoodAssert s
  | .pwrGoodDeassert => Sys2Proof.Machine.execPwrGoodDeassert s
  | .vmainBelowThreshold => Sys2Proof.Machine.execVmainBelowThreshold s
  | .resetNAssert => Sys2Proof.Machine.execResetNAssert s
  | .resetNRelease => Sys2Proof.Machine.execResetNRelease s
  | .powerDownComplete => Sys2Proof.Machine.execPowerDownComplete s
  | .power ok => Sys2Proof.Machine.execPower ok s
  | .binnacleCheck progOk => Sys2Proof.Machine.execBinnacleCheck progOk s
  | .fuseLoad stuckAt => Sys2Proof.Machine.execFuseLoad stuckAt s
  | .coxBoot => Sys2Proof.Machine.execCoxBoot s
  | .selfTest r => Sys2Proof.Machine.execSelfTest r s
  | .pufRoot low mid high => Sys2Proof.Machine.execPufRoot low mid high s
  | .dramTrainTest trained tested => Sys2Proof.Machine.execDramTrainTest trained tested s
  | .keystoreOpen lastBad damaged badImages => Sys2Proof.Machine.execKeystoreOpen lastBad damaged badImages s
  | .pairJoin peer => Sys2Proof.Machine.execPairJoin peer s
  | .lifecycleTransition stepOk => Sys2Proof.Machine.execLifecycleTransition stepOk s
  | .testToken token => Sys2Proof.Machine.execTestToken token s
  | .factoryJtagCommand code tokens => Sys2Proof.Machine.execFactoryJtagCommand code tokens s
  | .dbgRelock => Sys2Proof.Machine.execDbgRelock s
  | .lcfSrcDisable ini mask => Sys2Proof.Machine.execLcfSrcDisable ini mask s
  | .logRecordDrain => Sys2Proof.Machine.execLogRecordDrain s
  | .logFreeze => Sys2Proof.Machine.execLogFreeze s
  | .logThaw => Sys2Proof.Machine.execLogThaw s
  | .freezeExpiry => Sys2Proof.Machine.execFreezeExpiry s
  | .optimeSave => Sys2Proof.Machine.execOptimeSave s
  | .trbClear => Sys2Proof.Machine.execTrbClear s
  | .counterClear reg => Sys2Proof.Machine.execCounterClear reg s
  | .profileSwitch => Sys2Proof.Machine.execProfileSwitch s
  | .domainPowerDown d => Sys2Proof.Machine.execDomainPowerDown d s
  | .powerCapExceeded deciwatts => Sys2Proof.Machine.execPowerCapExceeded deciwatts s
  | .powerCapRelease deciwatts => Sys2Proof.Machine.execPowerCapRelease deciwatts s
  | .drillArm inj => Sys2Proof.Machine.execDrillArm inj s
  | .reorderHoldTimeout inj => Sys2Proof.Machine.execReorderHoldTimeout inj s
  | .permitExpiry => Sys2Proof.Machine.execPermitExpiry s
  | .drillLogMs inj => Sys2Proof.Machine.execDrillLogMs inj s
  | .smbIdentity code => Sys2Proof.Machine.execSmbIdentity code s
  | .smbPower code mv ma => Sys2Proof.Machine.execSmbPower code mv ma s
  | .smbTemperature code die face => Sys2Proof.Machine.execSmbTemperature code die face s
  | .smbCell code external => Sys2Proof.Machine.execSmbCell code external s
  | .smbUsage code => Sys2Proof.Machine.execSmbUsage code s
  | .smbFru code off => Sys2Proof.Machine.execSmbFru code off s
  | .alertResponseRead => Sys2Proof.Machine.execAlertResponseRead s
  | .smbusTimeout => Sys2Proof.Machine.execSmbusTimeout s
  | .loReadLatch ini addr => Sys2Proof.Machine.execLoReadLatch ini addr s
  | .hiWriteStage ini addr v => Sys2Proof.Machine.execHiWriteStage ini addr v s
  | .loWriteCommit ini addr v => Sys2Proof.Machine.execLoWriteCommit ini addr v s
  | .registerWrite ini addr v => Sys2Proof.Machine.execRegisterWrite ini addr v s
  | .reservedEncoding i0 => Sys2Proof.Machine.execReservedEncoding i0 s
  | .drbgWaitTimeout w => Sys2Proof.Machine.execDrbgWaitTimeout w s
  | .pairAliveInAssert => Sys2Proof.Machine.execPairAliveInAssert s
  | .hostPortLinkChange port up => Sys2Proof.Machine.execHostPortLinkChange port up s
  | .vmainInRange => Sys2Proof.Machine.execVmainInRange s
  | .coldPlateOutOfRange celsius => Sys2Proof.Machine.execColdPlateOutOfRange celsius s
  | .alarmConditionClear src => Sys2Proof.Machine.execAlarmConditionClear src s
  | .domainPowerUp d => Sys2Proof.Machine.execDomainPowerUp d s
  | .soloDurable => Sys2Proof.Machine.execSoloDurable s
  | .discardedFrame f => Sys2Proof.Machine.execDiscardedFrame f s
  | .smbusWrite cmd => Sys2Proof.Machine.execSmbusWrite cmd s

end Sys2Proof.Machine
end

