-- ==== Sys2Proof/Safety.lean ====
section
/-! DEFINITION. The words in which claims about the module are stated: when a core may issue an instruction, what an
instruction that completes leaves unchanged, the arithmetic results of chapter 04 as numbers, and the states that every
step keeps. -/

namespace Sys2Proof.Claims

open Sys2Proof.Machine

/-! ### A Zynfer instruction that may issue -/

/-- Core `i.core` runs chain `x`, has budget left, fetches `op` of `len` words, and no source of `op` is pending
(Table 4.11, R211). -/
def CoreReady (s : State) (i : Issue) (op : Op) (x : Item) (len : Nat) : Prop :=
  (s.core i.core).item = some x ∧ x.strokes < x.budget ∧ MemEvent.readable (fetchEvent s i) = true ∧
    decodeAt x.code (s.core i.core).ctx.pc = .op op len ∧
    (∀ r ∈ Op.sources op, pendingReg (s.core i.core) r = false) ∧
    ∀ k ∈ Op.handles op, pendingKey (s.core i.core) k = false

/-- The instruction after it lies in the code, so completing it is no fall-through (R188). -/
def StaysInCode (s : State) (i : Issue) (x : Item) (len : Nat) : Prop :=
  (seqNext (s.core i.core).ctx len).1 < x.code.length

/-- From `s` to `t` only core `c` changed, but for what the fetch met (Table 17.4) and the program lines that its crew took in
(R151), and the core's chain counted one stroke (R133). -/
structure OneStroke (s t : State) (i : Issue) (x : Item) : Prop where
  blocks : t = { memMeets s (fetchEvent s i) with cores := t.cores, pcache := t.pcache }
  caches : ∀ k, k ≠ crewOf i.core → vget t.pcache k {} = vget s.pcache k {}
  others : ∀ c, c ≠ i.core → t.core c = s.core c
  item : (t.core i.core).item = some { x with strokes := x.strokes + 1 }
  owner : (t.core i.core).owner = (s.core i.core).owner

/-- The instruction changed no register: its core goes on with the context `ctx`, and LDM stands. -/
structure Moves (s t : State) (i : Issue) (x : Item) (ctx : Ctx) : Prop extends OneStroke s t i x where
  ctx : (t.core i.core).ctx = ctx
  ldm : (t.core i.core).ldm = (s.core i.core).ldm

/-- The instruction wrote `v` to general register `d` and control went on to `pc` with loop `l`: every other register, the
handles, the call return stack and LDM stand as before. A write to g0 is discarded. -/
structure WroteReg (s t : State) (i : Issue) (x : Item) (d : GReg) (v : Word) (pc : Nat) (l : Option Loop) : Prop
    extends OneStroke s t i x where
  value : d ≠ 0 → rd t i.core d = v
  zero : rd t i.core 0 = 0
  regs : ∀ r, r ≠ d → rd t i.core r = rd s i.core r
  handles : (t.core i.core).ctx.k = (s.core i.core).ctx.k
  stack : (t.core i.core).ctx.stack = (s.core i.core).ctx.stack
  ldm : (t.core i.core).ldm = (s.core i.core).ldm
  pc : (t.core i.core).ctx.pc = pc
  loop : (t.core i.core).ctx.loop = l

/-- The instruction wrote `v` to `d` and the next instruction in order follows (R194). -/
def Retires (s t : State) (i : Issue) (x : Item) (len : Nat) (d : GReg) (v : Word) : Prop :=
  WroteReg s t i x d v (seqNext (s.core i.core).ctx len).1 (seqNext (s.core i.core).ctx len).2

/-! ### Results of chapter 04 -/

/-- Bytes of a number, byte 0 lowest. -/
def byteOf (n k : Nat) : Nat := n / 256 ^ k % 256

/-- `v` is what Table 4.4 gives for the operation on `a` and `b`. -/
def RegOpGives (f : RegOp) (a b v : Word) : Prop :=
  let sh := b.toNat % 64
  match f with
  | .add => v.toNat = (a.toNat + b.toNat) % 2 ^ 64
  | .sub => v.toNat = (a.toNat + (2 ^ 64 - b.toNat)) % 2 ^ 64
  | .and => ∀ n < 64, v.getLsbD n = (a.getLsbD n && b.getLsbD n)
  | .or => ∀ n < 64, v.getLsbD n = (a.getLsbD n || b.getLsbD n)
  | .xor => ∀ n < 64, v.getLsbD n = (a.getLsbD n != b.getLsbD n)
  | .andn => ∀ n < 64, v.getLsbD n = (a.getLsbD n && !b.getLsbD n)
  | .orn => ∀ n < 64, v.getLsbD n = (a.getLsbD n || !b.getLsbD n)
  | .xnor => ∀ n < 64, v.getLsbD n = (a.getLsbD n == b.getLsbD n)
  | .sll => v.toNat = a.toNat * 2 ^ sh % 2 ^ 64
  | .srl => v.toNat = a.toNat / 2 ^ sh
  | .sra => v.toInt = a.toInt / 2 ^ sh
  | .rol => ∀ n < 64, v.getLsbD ((n + sh) % 64) = a.getLsbD n
  | .ror => ∀ n < 64, v.getLsbD n = a.getLsbD ((n + sh) % 64)
  | .slt => v = if a.toInt < b.toInt then 1 else 0
  | .sltu => v = if a.toNat < b.toNat then 1 else 0
  | .min => v.toInt = min a.toInt b.toInt
  | .max => v.toInt = max a.toInt b.toInt
  | .minu => v.toNat = min a.toNat b.toNat
  | .maxu => v.toNat = max a.toNat b.toNat
  | .clz => v.toNat ≤ 64 ∧ (∀ n < v.toNat, a.getLsbD (63 - n) = false) ∧ (v.toNat < 64 → a.getLsbD (63 - v.toNat) = true)
  | .ctz => v.toNat ≤ 64 ∧ (∀ n < v.toNat, a.getLsbD n = false) ∧ (v.toNat < 64 → a.getLsbD v.toNat = true)
  | .popc => v.toNat = ((List.range 64).map fun n => a.toNat / 2 ^ n % 2).sum
  | .bswap => ∀ k < 8, byteOf v.toNat k = byteOf a.toNat (7 - k)
  | .bswapw => v.toNat < 2 ^ 32 ∧ ∀ k < 4, byteOf v.toNat k = byteOf a.toNat (3 - k)
  | .bswaph => v.toNat < 2 ^ 16 ∧ ∀ k < 2, byteOf v.toNat k = byteOf a.toNat (1 - k)
  | .sextb => v.toInt = Int.bmod a.toNat (2 ^ 8)
  | .sexth => v.toInt = Int.bmod a.toNat (2 ^ 16)
  | .sextw => v.toInt = Int.bmod a.toNat (2 ^ 32)
  | .zextw => v.toNat = a.toNat % 2 ^ 32

/-- `v` is what Table 4.5, R170 and R171 give. -/
def MulOpGives (f : MulOp) (a b v : Word) : Prop :=
  match f with
  | .mul => v.toNat = a.toNat * b.toNat % 2 ^ 64
  | .mulh => v.toInt = a.toInt * b.toInt / 2 ^ 64
  | .mulhu => v.toNat = a.toNat * b.toNat / 2 ^ 64
  | .mulhsu => v.toInt = a.toInt * b.toNat / 2 ^ 64
  | .div =>
    if b = 0 then v.toNat = 2 ^ 64 - 1
    else if a.toInt = -2 ^ 63 ∧ b.toInt = -1 then v.toInt = -2 ^ 63
    else v.toInt = a.toInt.tdiv b.toInt
  | .divu => if b = 0 then v.toNat = 2 ^ 64 - 1 else v.toNat = a.toNat / b.toNat
  | .rem =>
    if b = 0 then v = a
    else if a.toInt = -2 ^ 63 ∧ b.toInt = -1 then v = 0
    else v.toInt = a.toInt.tmod b.toInt
  | .remu => if b = 0 then v = a else v.toNat = a.toNat % b.toNat

/-- Signed value of an immediate: from bit 31 when prefixed, from bit 15 otherwise (R160). -/
def immInt (p : Bool) (v : BitVec 32) : Int := if p then v.toInt else Int.bmod v.toNat (2 ^ 16)

/-- `v` is what Table 4.6 gives for the value `a` and the immediate `imm`. -/
def ImmOpGives (f : ImmOp) (a : Word) (p : Bool) (imm : BitVec 32) (v : Word) : Prop :=
  match f with
  | .addi => (v.toNat : Int) = (a.toNat + immInt p imm) % 2 ^ 64
  | .andi => v.toNat = a.toNat &&& imm.toNat
  | .ori => v.toNat = a.toNat ||| imm.toNat
  | .xori => v.toNat = a.toNat ^^^ imm.toNat
  | .slti => v = if a.toInt < immInt p imm then 1 else 0
  | .sltiu => v = if (a.toNat : Int) < immInt p imm % 2 ^ 64 then 1 else 0
  | .lih => v.toNat = imm.toNat * 2 ^ 32 + a.toNat % 2 ^ 32

/-- `v` is what R173 gives. -/
def ShOpGives (f : ShOp) (a : Word) (n : BitVec 6) (v : Word) : Prop :=
  match f with
  | .slli => v.toNat = a.toNat * 2 ^ n.toNat % 2 ^ 64
  | .srli => v.toNat = a.toNat / 2 ^ n.toNat
  | .srai => v.toInt = a.toInt / 2 ^ n.toNat
  | .rori => ∀ k < 64, v.getLsbD k = a.getLsbD ((k + n.toNat) % 64)

/-! ### Memory of a program -/

/-- Byte `off` of a space, as the running chain would read it (Table 3.2). -/
def spaceByte (s : State) (c : CoreId) (x : Item) (sp : Space) (off : Nat) : Byte := (readSpace s c x sp off 1).headD 0

/-- Address of an access (R176). -/
def effAddr (s : State) (c : CoreId) (a : GReg) (p : Bool) (off : BitVec 32) : Nat :=
  (((rd s c a).toNat + immInt p off) % 2 ^ 64).toNat

/-- The bytes lie in the space, the direction is one the space takes, and for the crew scratch the program is privileged
and the protection units permit the access (R112, R113, R137, R138, R179). -/
def Reaches (s : State) (c : CoreId) (x : Item) (sp : Space) (store : Bool) (off n : Nat) : Prop :=
  match sp with
  | .ldm => off + n ≤ 65536
  | .req => store = false ∧ off + n ≤ x.payload.length
  | .con => store = false ∧ off + n ≤ x.const.length
  | .rpl => store = true ∧ off + n ≤ x.replyCap
  | .scr => x.priv = true ∧ off + n ≤ 1048576 ∧ scrRefused s c x store off n = none

/-- Signed target of a transfer lies in the code (R187). -/
def InCode (x : Item) (t : Int) : Prop := 0 ≤ t ∧ t < x.code.length

/-- The active loop after a transfer to `n`: it stays where `n` lies in its body, or where the transfer keeps it (R195). -/
def loopAfter (l : Option Loop) (keep : Bool) (n : Nat) : Option Loop :=
  match l with
  | some b => if keep = true ∨ (b.top ≤ n ∧ n ≤ b.last) then some b else none
  | none => none

/-! ### Service instructions (chapter 05) -/

/-- The state in which an instruction acts: its fetch has met the program cache or DRAM and its stroke is counted (Table 4.11).
-/
def issueSt (s : State) (i : Issue) : State := stroke (fetched s i) i.core

/-- The instruction completed on its core and the next in order follows; its result may still be pending (R211). -/
structure Issued (s t : State) (i : Issue) (x : Item) (len : Nat) : Prop where
  others : ∀ c, c ≠ i.core → t.core c = s.core c
  item : ∃ y, (t.core i.core).item = some y ∧ y.strokes = x.strokes + 1 ∧ y.serial = x.serial
  ldm : (t.core i.core).ldm = (s.core i.core).ldm
  pc : (t.core i.core).ctx.pc = (seqNext (s.core i.core).ctx len).1
  loop : (t.core i.core).ctx.loop = (seqNext (s.core i.core).ctx len).2

/-- The parameter block of `n` bytes at the offset that `g` holds, with the references `refs` names in it, raises no fault
and waits for nothing (R116, R215, R218, R814 item 1). -/
def BlockReady (s : State) (c : CoreId) (x : Item) (g : GReg) (n : Nat) (refs : List Byte → List (BufRef × Bool)) : Prop :=
  (rd s c g).toNat % 8 = 0 ∧ (rd s c g).toNat + n ≤ 65536 ∧
    let b := Mem.read (s.core c).ldm (rd s c g).toNat n
    (refsEffect s c x (refs b)).isNone = true ∧ bytesBusy s c (rangeOf .ldm (rd s c g).toNat n) = false ∧
      ∀ r ∈ refs b, r.1.valid = true → (pendingWrites (s.core c)).any r.1.overlaps = false

/-- The parameter block of `n` bytes at the offset that `g` holds. -/
def blockAt (s : State) (c : CoreId) (g : GReg) (n : Nat) : List Byte := Mem.read (s.core c).ldm (rd s c g).toNat n

/-- A register result `p` is pending after every earlier one; a pending result for the same register is superseded (R211). -/
def Pends (s t : State) (c : CoreId) (p : PendG) : Prop := (t.core c).pendG = (supersede (s.core c) p.reg).pendG ++ [p]

/-- A key instruction `p` is pending after every earlier one (R212), its `kd` is empty (R227). -/
def PendsKey (s t : State) (c : CoreId) (p : PendK) : Prop :=
  (t.core c).pendK = (supersede (s.core c) p.gs).pendK ++ [{ p with asked := s.mer.elapsed }] ∧
    ∀ r, p.kd = some r → p.op ≠ .kdrop → (t.core c).ctx.k.get r = none

/-- The cache holds the key's material: each entry XOR its mask is 64 bytes of it (R380). -/
def holdsKey (e : Cached) (k : KeyRec) : Bool := e.slots.map (fun x => xorBytes x.value x.mask) == entryBytes k

/-- The chain holds one more ticket, and `d` holds its number (R221, R222). -/
def GotTicket (t : State) (i : Issue) (x : Item) (d : GReg) (n : Nat) (fail : Option Nat) : Prop :=
  (∃ y, (t.core i.core).item = some y ∧ y.tickets = x.tickets ++ [{ num := n, fail := fail }]) ∧
    (d ≠ 0 → rd t i.core d = BitVec.ofNat 64 n)

/-- One job more waits on engine `e`. -/
def Queued (s t : State) (k : SymKind) (e n : Nat) (c : CoreId) (x : Item) (op : JobOp) (key : Option KeyRec) : Prop :=
  (engineOf t k e).queue = (engineOf s k e).queue ++
    [{ num := n, core := c, serial := x.serial, inst := x.inst, held := x.held, op := op, key := key, since := now s }]

/-- The chain on core `c` ended by a fault: the core is free and its handles are empty. Unless the chain ran a sample again,
whose result may send the unit to Hold-Water (R645), LDM stands but for what its streaming jobs had written by then (R452), no
other core changed, and the cause is counted against the instance (R133, R134, R140, R142, R773; log 36). -/
def FaultEnds (s t : State) (c : CoreId) (x : Item) (cause : Nat) : Prop :=
  (t.core c).item = none ∧ (∀ r, (t.core c).ctx.k.get r = none) ∧
    (x.sample = none → (t.core c).ldm = ((flushJobs s fun j => j.core == c && j.serial == x.serial).core c).ldm ∧
      (∀ e, e ≠ c → t.core e = s.core e) ∧
      alGet t.log.trbInst (x.inst, cause) = some (min 65535 ((alGet s.log.trbInst (x.inst, cause)).getD 0 + 1)))

/-! ### Control space (chapter 20) -/

/-- Registers that act when they are written, that hold their value within a range, or that another register's index selects, by
block and offset. -/
def actingRegs : List (Nat × Nat) :=
  [(1, 0x01C), (2, 0x004), (3, 0x00C), (5, 0x004), (6, 0x004), (7, 0x004), (8, 0x004), (9, 0x004), (10, 0x004), (11, 0x018),
   (12, 0x004), (13, 0x00C), (14, 0x010), (14, 0x014), (14, 0x018), (14, 0x01C), (14, 0x020), (14, 0x024), (15, 0x01C),
   (16, 0x01C), (17, 0x004), (20, 0x010), (20, 0x014), (20, 0x018), (21, 0x004)]

/-- A register present in this variant whose write does nothing but change its bits. -/
def PlainRegister (s : State) (addr : Nat) (r : RegDef) : Prop :=
  unitPresent s.variant (regPlace addr).1 (regPlace addr).2.1 = true ∧ regDef addr = some r ∧
    clearFields s addr 0 = none ∧ ((regPlace addr).1, (regPlace addr).2.2) ∉ actingRegs

/-- Bit `b` of field `f` after a write of `v` over `old` (Table 0.6, R763 to R765): `gate` says that the block is enabled,
`lock` that the field has had its write. -/
def writtenBit (f : FieldDef) (old v : BitVec 32) (gate lock : Bool) (b : Nat) : Bool :=
  match f.acc with
  | .rw => v.getLsbD b
  | .rwe => if gate then old.getLsbD b else v.getLsbD b
  | .wl => if lock then old.getLsbD b else v.getLsbD b
  | .w1c => old.getLsbD b && !v.getLsbD b
  | _ => old.getLsbD b

/-- An initiator other than the debug port may make the access, and no protection unit refuses it (R137, R683, R753). -/
def MayAccess (s : State) (ini : Initiator) (addr : Nat) (store : Bool) : Prop :=
  ini ≠ .debug ∧ iniAble s ini addr store = true ∧ addr % 4 = 0 ∧ apuRefuses s (iniAccess ini store) addr 4 = none

/-! ### Records and the journal (chapters 07 to 09) -/

/-- The record that a command of a configuration row commits (Tables 7.2, 9.3, 9.5, R782). -/
def confOf : Instr → Option ConfRec
  | .domainCreate d => some (.domainCreate d)
  | .domainDelete d => some (.domainDelete d)
  | .instanceCreate i d sh => some (.instCreate i d sh)
  | .instanceDelete i => some (.instDelete i)
  | .administrativeState i e => some (.adminState i e)
  | .shareChange i sh => some (.shareChange i sh)
  | .queueConfigure q b => some (.queueConfigure q b)
  | .queueRemove q => some (.queueRemove q)
  | .officerSet d l => some (.officerSet d l)
  | .policy d l => some (.policy d l)
  | .domainSettings d x => some (.settings d x)
  | .usagePolicyEntry d u => some (.usage d u)
  | .imageLoad d i v dig => some (.imageLoad d i v dig)
  | .imageUnload d i v => some (.imageUnload d i v)
  | .bind d q i v => some (.bind d q i v)
  | .unbind d q => some (.unbind d q)
  | .raiseVersionFloor d i f => some (.raiseFloor d i f)
  | .profileRecord p => some (.profile p)
  | _ => none

/-- CSNs rise along the journal (R47). -/
def JournalInOrder (s : State) : Prop := s.ksc.commits.Pairwise fun a b => a.csn < b.csn

/-- The key store with commit `c` in its journal, whose block has taken the next write sequence (R393). -/
def journalled (s : State) (c : Commit) : Ksc :=
  { s.ksc with
    commits := s.ksc.commits ++ [c], wseq := s.ksc.wseq + 1, blockWseq := s.ksc.blockWseq ++ [(c.csn, s.ksc.wseq + 1)] }

/-- The key store with one more commit, of record `r`: the next CSN, its chain digest, and the write sequence of its block (R47,
R393, R635). -/
def committed (s : State) (r : Rec) : Ksc :=
  let n := lastCsn s + 1
  journalled s { csn := n, recs := [r], digest := chainDigest (lastDigest s) n [r] }

/-! ### Ports and sessions (chapters 14 and 15) -/

/-- No injector is armed and none holds a frame. -/
def NoDrill (s : State) : Prop := ∀ i, (injOf s i).armed = false ∧ (injOf s i).held = []

/-- The frame passes rows 1 to 5 of Table 14.1 at a present port. -/
def Handled (s : State) (f : Frame) : Prop :=
  s.pwr.mainPower = true ∧ portPresent s f.port = true ∧ linkOk s f = true ∧ headerOk f = true

/-- The frame passes Table 14.1 and verifies under generation `g` on session `x`, which this unit serves; `p` is the frame with
its body in clear. -/
structure ReachesSession (s : State) (f : Frame) (x : Session) (g : Nat) (p : Frame) : Prop where
  drill : NoDrill s
  handled : Handled s f
  dest : f.port = 4 ∨ toService s f = true
  serves : portServes s f.port = true
  mine : servesSess s x = true
  found : findSess s x.id = some x
  sess : f.hdr.sess = x.id
  port : f.port = x.port
  tag : verifies x (stamped s f) = some (g, p)

/-- Nothing of the session waits to be sent: no reply, no anchor, no CLOSE. -/
structure Quiet (x : Session) : Prop where
  replies : x.outq = [] ∧ x.again = []
  anchor : x.awaits = none
  close : x.closeWith = none

/-- The session's anchor is mirrored, no other is awaited, and the host's window has room for a frame. -/
def SendsNow (x : Session) : Prop := x.anchored = true ∧ x.awaits = none ∧ x.txSeq < x.peerAck + x.peerWin

/-- The frame is the next in sequence, within the window, and acknowledges every frame the module sent; nothing waits. -/
structure NextInOrder (x : Session) (f : Frame) : Prop where
  seq : f.hdr.seq = x.rxCum
  gaps : x.rxSet = []
  win : 0 < x.advWin ∨ f.hdr.typ = 5
  valid : ackViolates x f.hdr = false
  cum : x.peerAck ≤ f.hdr.cumAck
  all : ∀ u ∈ x.unacked, ackedBy f.hdr u.seq = true
  idle : Quiet x

/-- Other sessions stand as they were. -/
def OthersStand (s t : State) (id : Nat) : Prop := ∀ k, k ≠ id → findSess t k = findSess s k

/-! ### Pools (chapters 11 and 12) -/

/-- A chain of serial `serial` with ticket `n` complete at status `st`; any other chain as it was. -/
def ticketDone (serial n st : Nat) (x : Item) : Item :=
  if x.serial = serial then
    { x with tickets := x.tickets.map fun k => if k.num = n then { k with done := some st } else k }
  else x

/-- From `s` to `t` ticket `n` of the chain `serial` completed, whether the chain runs or is parked (R221, R251). -/
def TicketDone (s t : State) (serial n st : Nat) : Prop :=
  (∀ c, (t.core c).item = (s.core c).item.map (ticketDone serial n st)) ∧
    t.dsp.parked = s.dsp.parked.map fun w => { w with item := ticketDone serial n st w.item }

/-- Engine `e` of a pool. -/
def bneOf (s : State) (e : Nat) : PoolEngine := vget s.bne.engines e {}
def lteOf (s : State) (e : Nat) : PoolEngine := vget s.lte.engines e {}

/-- Slot length of big-number engine `e` in words: that of `BNE_SLOT`, held from 4 to 128, while the engine holds no job
(R496). -/
def slotLength (s : State) (e : Nat) : Nat :=
  if (bneOf s e).jobs = [] then min 128 (max 4 (fld s (winBase 8 e + 0xC) 0 7)) else (bneOf s e).slotWords

/-- Big-number engine `e` may load the job (R475 to R477). -/
def BneTakes (s : State) (j : PoolJob) (e : Nat) : Prop :=
  e < s.variant.bneEngines ∧ bneOnline s e = true ∧ blockEn s 8 e = true ∧ j.width ≤ 64 * slotLength s e ∧
    (bneOf s e).recovering = false ∧ (bneOf s e).loaded.length < 7 ∧
    slotsUsed (bneOf s e) + j.slots ≤ 65536 / (8 * slotLength s e)

/-- Lattice engine `e` has room (R499, R522). -/
def LteRoom (s : State) (e : Nat) : Prop :=
  e < s.variant.lteEngines ∧ lteOnline s e = true ∧ (lteOf s e).recovering = false ∧ (lteOf s e).loaded.length < 3

/-- DRBG instance `n` answers its next `k` generate requests (R529, R531). -/
def Serves (s : State) (n k : Nat) : Prop := (drbgOf s n).state = .serving ∧ (drbgOf s n).reqs + k ≤ 65536

/-- The system DRBG answers the next `k` requests, and no wire waits for it (R530). -/
def SysServes (s : State) (k : Nat) : Prop := Serves s s.variant.sysUnit k ∧ s.rng.waits = []

/-- The next draw of `len` bytes from DRBG instance `n` gives `b`. -/
def Generates (s : State) (n len : Nat) (b : List Byte) : Prop := ∃ t, drbgDraw s n len = some (b, t)

/-- The next draw of `n` bytes on wire `w` of the system DRBG gives `b`. -/
def Draws (s : State) (w : Wire) (n : Nat) (b : List Byte) : Prop := ∃ t, sysDraw s w n = some (b, t)

/-- A job that no recovery, reset or session loss has marked. -/
def Plain (j : PoolJob) : Prop := j.faulted = false ∧ j.aborted = false ∧ j.scrub = false ∧ j.badExp = false

/-- The pool's output store holds one more result, which its chain's ticket announces (R251, R493, R501). -/
def Delivered {n : Nat} (p q : Pool n) (j : PoolJob) (st : Nat) (out : List Byte) : Prop :=
  ∃ d : PoolDone, q.done = p.done ++ [d] ∧ d.num = j.num ∧ d.serial = j.serial ∧ d.inst = j.inst ∧ d.status = st ∧
    d.out = out ∧ d.blk = j.blk ∧ d.outs = j.outs ∧ d.place = true

/-- Job `j` derives a key with the secret `b` into register `reg` for the chain `x`: the system DRBG serves its draws, and the
cache has room for the instance (R372, R380, R481, R505). -/
def Derives (s : State) (j : PoolJob) (reg : KReg) (x : Item) (b : List Byte) : Prop :=
  ∃ a, j.spec = some (reg, a) ∧ chainOf s j.serial = some x ∧
    SysServes s (1 + ceilDiv (materialLen a.alg a.size) 64) ∧
    ceilDiv (materialLen a.alg a.size) 64 ≤ freeFor s.variant (cfgV s) s.ksc.cache j.inst ∧
    b.length = materialLen a.alg a.size ∧ ∀ e ∈ s.ksc.cache, e.name.uid < s.ksc.nextUid

/-- The derived key `y`: not persisted, with the attributes asked for and its material, held in the cache for the instance. -/
def Derived (s t : State) (j : PoolJob) (x : Item) (b : List Byte) (y : KeyRec) : Prop :=
  j.spec.map (·.2) = some y.attrs ∧ y.name = { dom := x.imageDom, idx := 0, gen := 0, uid := s.ksc.nextUid } ∧ y.material = b ∧
    (∃ v, Draws s .ksc 5 v ∧ y.ivFixed = leNat v) ∧
      t.ksc.cache.any (fun e => e.name == y.name && e.inst == j.inst && holdsKey e y) = true

/-! ### Management (chapter 20) and ceremonies (chapter 09) -/

/-- A management message reaches this unit on the management session `x`, whose host's window is full, so that its answer
waits (R593, R754). -/
structure Asked (s : State) (m : Mgmt) (x : Session) : Prop where
  served : mgmtServed s = true
  found : findSess s m.sess = some x
  mgmt : x.mgmt = true
  live : x.state ≠ .halfOpen ∧ x.state ≠ .closing
  full : x.peerAck + x.peerWin ≤ x.txSeq

/-- The session holds the answer with status `st` and payload `b`, after every earlier one. -/
def Answers (s t : State) (m : Mgmt) (x : Session) (st : Nat) (b : List Byte) : Prop :=
  findSess t m.sess = some { x with
    outq := x.outq ++ [{ reqId := m.reqId, status := st, payload := b, waiting := s.mer.elapsed }] }

/-- The ceremony of number `n`, and no other of that number. -/
def TheCeremony (s : State) (n : Nat) (c : Ceremony) : Prop :=
  c ∈ s.qrm.cers ∧ c.number = n ∧ ∀ y ∈ s.qrm.cers, y.number = n → y = c

/-- From `s` to `t` ceremony `n` became `c`, and every other ceremony stands. -/
def CeremonyBecame (s t : State) (n : Nat) (c : Ceremony) : Prop :=
  t.qrm.cers = s.qrm.cers.map fun y => if y.number = n then c else y

/-! ### The pair (chapter 16) -/

/-- A PLP frame passes the checks of R633, acknowledges no frame of this unit, and finds a link that is up and a peer that
does not yield. -/
structure Hears (s : State) (p : Plp) : Prop where
  drill : NoDrill s
  paired : s.prl.paired = true
  powered : s.pwr.mainPower = true
  crc : p.crcOk = true
  tag : p.tagOk = true
  rsvd : p.rsvd = 0
  known : s.prl.epochKnown = true
  epoch : p.epoch = s.prl.epoch
  seq : p.seq = s.prl.rxSeq
  alive : p.alive = true
  link : s.prl.linkUp = true
  ack : ∀ f ∈ s.prl.unacked, p.ack ≤ f.1
  role : roleOf s ≠ .isolated

/-- The pair block once such a frame has been accepted (R627, R633). -/
def heard (s : State) : Prl :=
  { s.prl with rxSeq := s.prl.rxSeq + 1, lastRx := s.mer.elapsed, peerYield := false }

/-! ### Alarms (chapter 18) -/

/-- The condition of source `n` may fire at its next sample: the source is watched, its condition was absent from the start,
and the evidence register has room (R700, R718). -/
structure Armed (s : State) (n : Nat) : Prop where
  known : n < 29
  acts : acts s n = true
  quiet : (sourceOf s n).active = false
  first : (sourceOf s n).absentAt = none
  room : s.bin.pend.length < 8

/-- The condition of source `n` fired with `detail`, and its response came into force (R700, R701, R704, R706, R716,
Tables 18.2 and 18.4). -/
structure Raised (s t : State) (n detail : Nat) : Prop where
  active : effective s n ≠ 7 → (sourceOf t n).active = true
  count : effective s n ≠ 7 → (sourceOf t n).count = min 65535 ((sourceOf s n).count + 1)
  evidence : 2 ≤ effective s n → effective s n ≠ 7 →
    ∃ e, t.bin.pend = s.bin.pend ++ [e] ∧ e.src = n ∧ e.resp = effective s n ∧ e.detail = detail
  throttle : s.pwr.mainPower = true → effective s n = 1 → n ∈ t.bin.throttle
  lockNew : s.pwr.mainPower = true → effective s n = 2 → t.bin.lockNew = true
  lock : s.pwr.mainPower = true → effective s n = 3 → t.bin.lock = true ∧ t.bin.lockNew = true
  zeroize : effective s n = 4 → t.bin.share = false ∧ (s.pwr.mainPower = true → t.bin.zeroize = true ∧
    t.ksc.rootOk = false ∧ t.ksc.cache = [] ∧ t.mec.master = [] ∧ t.prl.fence = false ∧ ∀ c, (t.core c).ldm = [])
  off : effective s n = 7 → t = { s with bin := t.bin }

/-! ### Start and life cycle (chapter 19) -/

/-- The start failed with `code`: from COX_BOOT on the unit is in Hold-Water, before it the failure waits for that stage
(R726, R731). -/
def StartFails (s t : State) (code : Nat) : Prop :=
  t.lcf.failure = code ∧ t.lcf.stage = s.lcf.stage ∧
    if s.lcf.stage < 3 then t.lcf.deferredFailure = code else t.lcf.holdWater = true ∧ t.pwr.starting = false

/-- Volatile state is gone: no chain, no session, no key in the cache, no fence; what NAND and OTP hold stands (R791). -/
def VolatileGone (s t : State) : Prop :=
  (∀ c, (t.core c).item = none ∧ (t.core c).ldm = []) ∧ t.net.sessions = [] ∧ t.ksc.cache = [] ∧ t.ksc.rootOk = false ∧
    t.dsp.work = [] ∧ t.prl.fence = false ∧ t.ksc.commits = s.ksc.commits ∧ t.ksc.base = s.ksc.base ∧
    t.lcf.words = s.lcf.words ∧ t.lcf.progress = s.lcf.progress ∧ t.log.nand = s.log.nand ∧ t.bin.share = s.bin.share ∧
    t.bin.store = s.bin.store

/-! ### What every step keeps -/

/-- Every memory that a program reaches is in its canonical form: the LDM of each core, the LDM that a continuation carries,
and the crew scratch. -/
structure Canonical (s : State) : Prop where
  ldm : ∀ c, Mem.wf (s.core c).ldm = true
  carried : ∀ w ∈ s.dsp.work ++ s.dsp.parked, ∀ y, w.carry = some y → Mem.wf y.ldm = true
  scratch : ∀ k, Mem.wf (vget s.scratch k []) = true

end Sys2Proof.Claims
end

