-- ==== Sys2Proof/Certificates/Slice0/Obligations.lean ====
section
/-! DEFINITION. The statements for the provers. -/

open Sys2Proof Sys2Proof.Machine Sys2Proof.Claims

/-! ### Queue and step -/

/-- A step runs the command at the front of the queue with the queue's rest. -/
def Obligations.StepRunsTheFrontCommand : Prop :=
  ∀ (s : State) (c : Instr) (rest : List Instr),
    step { s with pending := c :: rest } = exec c { s with pending := rest }

/-! ### Chapter 04: integer instructions -/

/-- R168, Table 4.4: ADD to ZEXTW (29 rows). -/
def Obligations.RegisterOperationResults : Prop :=
  ∀ (s : State) (c : Instr) (i : Issue) (f : RegOp) (d a b : GReg) (x : Item) (len : Nat),
    Instr.op? c = some (i, .reg f d a b) → CoreReady s i (.reg f d a b) x len → StaysInCode s i x len →
    ∃ t v, exec c s = .next t ∧ RegOpGives f (rd s i.core a) (rd s i.core b) v ∧ Retires s t i x len d v

/-- R169, R170, R171, Table 4.5: MUL to REMU (8 rows). -/
def Obligations.MultiplyDivideResults : Prop :=
  ∀ (s : State) (c : Instr) (i : Issue) (f : MulOp) (d a b : GReg) (x : Item) (len : Nat),
    Instr.op? c = some (i, .mul f d a b) → CoreReady s i (.mul f d a b) x len → StaysInCode s i x len →
    ∃ t v, exec c s = .next t ∧ MulOpGives f (rd s i.core a) (rd s i.core b) v ∧ Retires s t i x len d v

/-- R160, R172, R173, Table 4.6: ADDI to LIH (7 rows) and SLLI to RORI (4 rows). -/
def Obligations.ImmediateOperationResults : Prop :=
  (∀ (s : State) (c : Instr) (i : Issue) (f : ImmOp) (d a : GReg) (p : Bool) (imm : BitVec 32) (x : Item) (len : Nat),
    Instr.op? c = some (i, .imm f d a p imm) → CoreReady s i (.imm f d a p imm) x len → StaysInCode s i x len →
    ∃ t v, exec c s = .next t ∧ ImmOpGives f (rd s i.core a) p imm v ∧ Retires s t i x len d v) ∧
  ∀ (s : State) (c : Instr) (i : Issue) (f : ShOp) (d a : GReg) (n : BitVec 6) (x : Item) (len : Nat),
    Instr.op? c = some (i, .sh f d a n) → CoreReady s i (.sh f d a n) x len → StaysInCode s i x len →
    ∃ t v, exec c s = .next t ∧ ShOpGives f (rd s i.core a) n v ∧ Retires s t i x len d v

/-! ### Chapters 03 and 04: memory instructions -/

/-- R12, R176, R177: LDB, LDH, LDW, LDD from every space that is readable. The value is little-endian, zero-extended, and
nothing but the register changes; a read of `req` or `con` also meets `m` in DRAM (Table 17.4). -/
def Obligations.LoadsReadTheirSpace : Prop :=
  ∀ (s : State) (i : Issue) (sp : Space) (wd : Width) (d a : GReg) (p : Bool) (off : BitVec 32) (m : MemEvent)
    (x : Item) (len : Nat),
    CoreReady s i (.mem sp false wd d a p off) x len → StaysInCode s i x len →
    Reaches s i.core x sp false (effAddr s i.core a p off) (Width.bytes wd) →
    bytesBusy s i.core (rangeOf sp (effAddr s i.core a p off) (Width.bytes wd)) = false →
    (sp = .req ∨ sp = .con → m = .ok) →
    ∃ t v,
      exec (match wd with
        | .b => .ldb i sp d a p off m | .h => .ldh i sp d a p off m | .w => .ldw i sp d a p off m
        | .d => .ldd i sp d a p off m) s = .next t ∧
      v.toNat < 256 ^ Width.bytes wd ∧
      (∀ k < Width.bytes wd,
        byteOf v.toNat k = (spaceByte s i.core x sp (effAddr s i.core a p off + k)).toNat) ∧
      Retires s t i x len d v

/-- R12, R176, R178: STB, STH, STW, STD to LDM, the reply window or the crew scratch. The stored bytes are the low bytes of
the register, little-endian; every other byte of every space, every register and every other core stands. -/
def Obligations.StoresWriteTheirSpace : Prop :=
  ∀ (s : State) (i : Issue) (sp : Space) (wd : Width) (d a : GReg) (p : Bool) (off : BitVec 32) (x : Item) (len : Nat),
    CoreReady s i (.mem sp true wd d a p off) x len → StaysInCode s i x len →
    Reaches s i.core x sp true (effAddr s i.core a p off) (Width.bytes wd) →
    bytesBusy s i.core (rangeOf sp (effAddr s i.core a p off) (Width.bytes wd)) = false →
    Mem.wf (s.core i.core).ldm = true → Mem.wf x.rpl = true → Mem.wf (vget s.scratch (crewOf i.core) []) = true →
    ∃ t y,
      exec (match wd with
        | .b => .stb i sp d a p off | .h => .sth i sp d a p off | .w => .stw i sp d a p off
        | .d => .std i sp d a p off) s = .next t ∧
      (t.core i.core).item = some y ∧ y = { x with strokes := x.strokes + 1, rpl := y.rpl } ∧
      (∀ k < Width.bytes wd,
        (spaceByte t i.core y sp (effAddr s i.core a p off + k)).toNat =
          byteOf (rd s i.core d).toNat k) ∧
      (∀ sp' o, ¬(sp' = sp ∧ effAddr s i.core a p off ≤ o ∧ o < effAddr s i.core a p off + Width.bytes wd) →
        spaceByte t i.core y sp' o = spaceByte s i.core x sp' o) ∧
      (∀ n < 8, n ≠ crewOf i.core → vget t.scratch n [] = vget s.scratch n []) ∧
      (∀ r, rd t i.core r = rd s i.core r) ∧
      (t.core i.core).ctx.k = (s.core i.core).ctx.k ∧ (t.core i.core).ctx.stack = (s.core i.core).ctx.stack ∧
      (∀ c, c ≠ i.core → t.core c = s.core c) ∧
      (t.core i.core).ctx.pc = (seqNext (s.core i.core).ctx len).1 ∧
      (∀ n, n ≠ crewOf i.core → vget t.pcache n {} = vget s.pcache n {}) ∧
      t = { memMeets s (fetchEvent s i) with cores := t.cores, scratch := t.scratch, pcache := t.pcache }

/-! ### Chapter 04: control flow -/

/-- R181, R187, R194, R195: BEQ, BNE, BLT, BGE, BLTU, BGEU. A branch that holds goes to its own offset plus the immediate,
in words, and ends a loop whose body it leaves; one that does not hold goes on; no register changes. -/
def Obligations.BranchesGoWhereTheySay : Prop :=
  ∀ (s : State) (c : Instr) (i : Issue) (f : BrOp) (a b : GReg) (p : Bool) (off : BitVec 32) (x : Item) (len : Nat),
    Instr.op? c = some (i, .br f a b p off) → CoreReady s i (.br f a b p off) x len →
    let k := (s.core i.core).ctx
    let u := rd s i.core a
    let v := rd s i.core b
    let holds := match f with
      | .eq => u = v | .ne => u ≠ v | .lt => u.toInt < v.toInt | .ge => v.toInt ≤ u.toInt
      | .ltu => u.toNat < v.toNat | .geu => v.toNat ≤ u.toNat
    let dest := (k.pc : Int) + immInt p off
    (holds → InCode x dest →
      ∃ t, exec c s = .next t ∧ Moves s t i x { k with pc := dest.toNat, loop := loopAfter k.loop false dest.toNat }) ∧
    (¬holds → StaysInCode s i x len →
      ∃ t, exec c s = .next t ∧ Moves s t i x { k with pc := (seqNext k len).1, loop := (seqNext k len).2 })

/-- R182 to R187, R195: J, CALL, JR, CALLR and RET. -/
def Obligations.JumpsAndCallsTransfer : Prop :=
  ∀ (s : State) (i : Issue) (x : Item) (len : Nat),
    let k := (s.core i.core).ctx
    (∀ off : BitVec 26, CoreReady s i (.jmp false off) x len → InCode x (k.pc + off.toInt) →
      ∃ t, exec (.j i off) s = .next t ∧
        Moves s t i x { k with pc := (k.pc + off.toInt).toNat, loop := loopAfter k.loop false (k.pc + off.toInt).toNat }) ∧
    (∀ off : BitVec 26, CoreReady s i (.jmp true off) x len → InCode x (k.pc + off.toInt) → k.stack.length < 16 →
      ∃ t, exec (.call i off) s = .next t ∧
        Moves s t i x { k with pc := (k.pc + off.toInt).toNat, stack := (k.pc + 1) :: k.stack }) ∧
    (∀ a, CoreReady s i (.jr a) x len → InCode x (rd s i.core a).toNat →
      ∃ t, exec (.jr i a) s = .next t ∧
        Moves s t i x { k with pc := (rd s i.core a).toNat, loop := loopAfter k.loop false (rd s i.core a).toNat }) ∧
    (∀ a, CoreReady s i (.callr a) x len → InCode x (rd s i.core a).toNat → k.stack.length < 16 →
      ∃ t, exec (.callr i a) s = .next t ∧
        Moves s t i x { k with pc := (rd s i.core a).toNat, stack := (k.pc + 1) :: k.stack }) ∧
    (∀ n rest, CoreReady s i .ret x len → k.stack = n :: rest → InCode x n →
      ∃ t, exec (.ret i) s = .next t ∧ Moves s t i x { k with pc := n, stack := rest })

/-- R190 to R194: LOOP loads the counter or, on zero, leaves the body; an instruction (here NOP) that completes at the
body's last word counts down and returns to its first, and on zero goes on. -/
def Obligations.LoopsCountDown : Prop :=
  ∀ (s : State) (i : Issue) (x : Item) (len : Nat),
    let k := (s.core i.core).ctx
    (∀ a (e : BitVec 16), CoreReady s i (.loop a e) x len → k.pc + e.toNat - 1 < x.code.length →
      (rd s i.core a ≠ 0 →
        ∃ t, exec (.loop i a e) s = .next t ∧
          Moves s t i x { k with
            pc := k.pc + 1
            loop := some { count := rd s i.core a, top := k.pc + 1, last := k.pc + e.toNat - 1 } }) ∧
      (rd s i.core a = 0 → InCode x (k.pc + e.toNat : Nat) →
        ∃ t, exec (.loop i a e) s = .next t ∧ Moves s t i x { k with pc := k.pc + e.toNat, loop := none })) ∧
    (CoreReady s i .nop x len →
      (∀ l, k.loop = some l → k.pc = l.last → 1 < l.count.toNat → l.top < x.code.length →
        ∃ t, exec (.nop i) s = .next t ∧ Moves s t i x { k with pc := l.top, loop := some { l with count := l.count - 1 } }) ∧
      (∀ l, k.loop = some l → k.pc = l.last → l.count.toNat ≤ 1 → k.pc + 1 < x.code.length →
        ∃ t, exec (.nop i) s = .next t ∧ Moves s t i x { k with pc := k.pc + 1, loop := none }) ∧
      ((∀ l, k.loop = some l → k.pc ≠ l.last) → k.pc + 1 < x.code.length →
        ∃ t, exec (.nop i) s = .next t ∧ Moves s t i x { k with pc := k.pc + 1 }))

/-! ### Chapter 05: engine and check-value instructions -/

/-- R221 to R223, R236, R243, R242, R247, R445: CIPH, KMAC, HASH and CVUPD that pass their checks give the chain a ticket and
queue one job on the crew engine that R445 chooses. -/
def Obligations.TicketInstructionsQueueTheirJob : Prop :=
  ∀ (s : State) (i : Issue) (x : Item) (len e : Nat),
    let c := i.core
    let u := issueSt s i
    StaysInCode s i x len → x.tickets.length < 32 →
    (∀ ka gs g, CoreReady s i (.key .ciph 0 ka g gs) x len →
      let b := parseCiph (blockAt u c g 64)
      let key2 := if b.mode = 11 then (u.core c).ctx.rk (Fin.ofNat 16 b.k2) else none
      BlockReady u c x g 64 (fun b => let p := parseCiph b; (ciphReads p).map (·, false) ++ (ciphWrites p).map (·, true)) →
      (b.mode = 11 → pendingKey (u.core c) (Fin.ofNat 16 b.k2) = false) →
      ciphCheck u x b ((u.core c).ctx.rk ka) key2 = 0 → chooseEngine u .cipher (crewOf c) = .engine e →
      ∃ t, exec (.ciph i ka gs g) s = .next t ∧ Issued s t i x len ∧
        GotTicket t i x gs (2 ^ 60 + s.dsp.nextTicket) none ∧
        Queued s t .cipher e (2 ^ 60 + s.dsp.nextTicket) c x (.ciph b key2) ((u.core c).ctx.rk ka)) ∧
    (∀ ka gs g, CoreReady s i (.key .kmac 0 ka g gs) x len →
      let b := parseCiph (blockAt u c g 64)
      BlockReady u c x g 64 (fun b => let p := parseCiph b; (kmacReads p).map (·, false) ++ [(p.dst, true)]) →
      macCheck u (kmacFieldsOk b) b ((u.core c).ctx.rk ka) uMacGen = 0 → chooseEngine u .hash (crewOf c) = .engine e →
      ∃ t, exec (.kmac i ka gs g) s = .next t ∧ Issued s t i x len ∧
        GotTicket t i x gs (2 * 2 ^ 60 + s.dsp.nextTicket) none ∧
        Queued s t .hash e (2 * 2 ^ 60 + s.dsp.nextTicket) c x (.kmac b) ((u.core c).ctx.rk ka)) ∧
    (∀ d a, CoreReady s i (.svc .hash d a 0) x len →
      let b := blockAt u c a 32
      let alg := fieldAt b 0 1
      BlockReady u c x a 32 (fun b => [(refAt b 8, false), (refAt b 16, true)]) →
      locked u = false → (1 ≤ alg ∧ alg ≤ 3 ∨ 0x11 ≤ alg ∧ alg ≤ 0x14) → rsvdOk b 1 7 = true → rsvdOk b 24 8 = true →
      (refAt b 8).valid = true → (refAt b 16).valid = true → (refAt b 8).len ≤ 1048576 →
      digestLen alg ≤ (refAt b 16).len → partOverlap (refAt b 16) (refAt b 8) = false →
      chooseEngine u .hash (crewOf c) = .engine e →
      ∃ t, exec (.hash i d a) s = .next t ∧ Issued s t i x len ∧
        GotTicket t i x d (2 * 2 ^ 60 + s.dsp.nextTicket) none ∧
        Queued s t .hash e (2 * 2 ^ 60 + s.dsp.nextTicket) c x (.hash alg (digestLen alg) (refAt b 8) (refAt b 16)) none) ∧
    ∀ d a b, CoreReady s i (.svc .cvupd d a b) x len →
      BlockReady u c x b 8 (fun blk => [(refAt blk 0, false)]) → locked u = false → (rd u c a).toNat ≤ 1 →
      (refAt (blockAt u c b 8) 0).valid = true → chooseEngine u .check (crewOf c) = .engine e →
      ∃ t, exec (.cvupd i d a b) s = .next t ∧ Issued s t i x len ∧
        GotTicket t i x d (3 * 2 ^ 60 + s.dsp.nextTicket) none ∧
        Queued s t .check e (3 * 2 ^ 60 + s.dsp.nextTicket) c x (.cvupd (rd u c a).toNat (refAt (blockAt u c b 8) 0)) none

/-- R223: a CIPH, KMAC, HASH or CVUPD that fails an issue check still gives a ticket, which ISSUE_CHECK_FAIL_COMPLETE
completes with the status decided at issue, and no job runs; here HASH with an algorithm that R242 does not list, while no
Lock is in force. -/
def Obligations.FailedIssueStillGivesATicket : Prop :=
  (∀ (s : State) (i : Issue) (x : Item) (len : Nat) (d a : GReg),
    StaysInCode s i x len → x.tickets.length < 32 → CoreReady s i (.svc .hash d a 0) x len →
    BlockReady (issueSt s i) i.core x a 32 (fun b => [(refAt b 8, false), (refAt b 16, true)]) →
    locked s = false → hashAlg (fieldAt (blockAt (issueSt s i) i.core a 32) 0 1) = false →
    ∃ t n, exec (.hash i d a) s = .next t ∧ Issued s t i x len ∧ GotTicket t i x d n (some St.paramInvalid) ∧
      t.hsh = s.hsh) ∧
  ∀ (s : State) (c : CoreId) (x : Item) (ticket st : Nat),
    ticket / 2 ^ 60 ≤ 3 → (s.core c).item = some x → x.tickets = [{ num := ticket, fail := some st }] →
    (∀ y ∈ liveChains s, y.serial = x.serial ∨ ∀ u ∈ y.tickets, u.num ≠ ticket) →
    (∀ y ∈ liveChains s, y.serial = x.serial → y = x) →
    ∃ t y, exec (.issueCheckFailComplete ticket) s = .next t ∧ (t.core c).item = some y ∧
      y.tickets = [{ num := ticket, fail := some st, done := some st }] ∧ y = { x with tickets := y.tickets }

/-- R205, R211, R238, R246 to R249, R256: MACV, CVSET, CVGET, CVPUT, RNG and TIME leave a result pending for their register. -/
def Obligations.ResultInstructionsLeaveAResultPending : Prop :=
  ∀ (s : State) (i : Issue) (x : Item) (len : Nat),
    let c := i.core
    let u := issueSt s i
    StaysInCode s i x len →
    (∀ ka gs g e, CoreReady s i (.key .macv 0 ka g gs) x len →
      let b := parseCiph (blockAt u c g 64)
      BlockReady u c x g 64 (fun b => (macvReads (parseCiph b)).map (·, false)) →
      macCheck u (macvFieldsOk b ((u.core c).ctx.rk ka) && decide (b.mode ≠ 0)) b ((u.core c).ctx.rk ka) uMacVerify = 0 →
      chooseEngine u (modeKind b.mode) (crewOf c) = .engine e →
      ∃ t n, exec (.macv i ka gs g) s = .next t ∧ Issued s t i x len ∧ Pends s t c { reg := gs, wait := .job n } ∧
        Queued s t (modeKind b.mode) e n c x (.macv b) ((u.core c).ctx.rk ka)) ∧
    (∀ d a b y, CoreReady s i (.svc .cvset d a b) x len → BlockReady u c x b 40 (fun _ => []) →
      (rd u c a).toNat ≤ 1 → parseCv (blockAt u c b 40) = some y → cvBusy u c (rd u c a).toNat = false →
      ∃ t, exec (.cvset i d a b) s = .next t ∧ Issued s t i x len ∧ Pends s t c { reg := d } ∧
        cvOf t c (rd u c a).toNat = y) ∧
    (∀ d a, CoreReady s i (.svc .cvget d a 0) x len →
      (∀ n ≤ 1, (rd u c a).toNat = n → cvBusy u c n = false →
        ∃ t, exec (.cvget i d a) s = .next t ∧ Issued s t i x len ∧
          Pends s t c { reg := d, value := BitVec.ofNat 64 (cvOf s c n).reg }) ∧
      (∀ n ≤ 1, (rd u c a).toNat = 256 + n → cvBusy u c n = false →
        ∃ t, exec (.cvget i d a) s = .next t ∧ Issued s t i x len ∧
          Pends s t c { reg := d, value := BitVec.ofNat 64 (cvResult (cvOf s c n)) })) ∧
    (∀ d a b, CoreReady s i (.svc .cvput d a b) x len → (rd u c a).toNat ≤ 1 → cvBusy u c (rd u c a).toNat = false →
      ∃ t, exec (.cvput i d a b) s = .next t ∧ Issued s t i x len ∧ Pends s t c { reg := d } ∧
        cvOf t c (rd u c a).toNat =
          { cvOf s c (rd u c a).toNat with reg := (rd u c b).toNat % 2 ^ (cvOf s c (rd u c a).toNat).width }) ∧
    (∀ d a b, CoreReady s i (.svc .rng d a b) x len → 1 ≤ (rd u c b).toNat → (rd u c b).toNat ≤ 4096 →
      (rd u c a).toNat + (rd u c b).toNat ≤ 65536 →
      bytesBusy u c (rangeOf .ldm (rd u c a).toNat (rd u c b).toNat) = false →
      ∃ t, exec (.rng i d a b) s = .next t ∧ Issued s t i x len ∧
        Pends s t c { reg := d, rngLen := some ((rd u c a).toNat, (rd u c b).toNat), wait := .drbg, asked := s.mer.elapsed }) ∧
    ∀ d, CoreReady s i (.svc .time d 0 0) x len →
      ∃ t p, exec (.time i d) s = .next t ∧ Issued s t i x len ∧ (t.core c).pendG.getLast? = some p ∧ p.reg = d ∧
        p.value = BitVec.ofNat 64 s.mer.t ∧ p.wait = .ready ∧
        p.second = some (d + 1, BitVec.ofNat 64 (s.mer.unc % 2 ^ 32 + servoCode s.mer.state * 2 ^ 32))

/-- R214, R222, R119, R197: WAIT of a completed ticket writes its status, sets CS_LAST and releases the ticket; STAT writes
the core status register of its index. -/
def Obligations.WaitAndStatWriteTheirRegister : Prop :=
  ∀ (s : State) (i : Issue) (x : Item) (len : Nat), StaysInCode s i x len →
    (∀ d a tk st, CoreReady s i (.svc .wait d a 0) x len →
      (rd s i.core a).toNat / 2 ^ 60 ≠ 4 → (rd s i.core a).toNat / 2 ^ 60 ≠ 5 →
      x.tickets.find? (fun k => k.num == (rd s i.core a).toNat) = some tk → tk.done = some st →
      ∃ t y, exec (.wait i d a) s = .next t ∧ Issued s t i x len ∧ (t.core i.core).item = some y ∧ y.csLast = st ∧
        y.tickets = x.tickets.filter (fun k => k.num != (rd s i.core a).toNat) ∧
        (d ≠ 0 → rd t i.core d = BitVec.ofNat 64 st) ∧ ∀ r, r ≠ d → rd t i.core r = rd s i.core r) ∧
    ∀ d (idx : BitVec 16), CoreReady s i (.stat d idx) x len →
      ∃ t, exec (.stat i d idx) s = .next t ∧ Retires s t i x len d (BitVec.ofNat 64 (
        match idx.toNat with
        | 0 => i.core.val + i.core.val / 8 * 64
        | 1 => match x.origin, decide (x.conts = 0) with
          | .host, true | .sample, true => 0
          | .posted, true => 1
          | .delayed, true => 2
          | .host, false | .sample, false => 3
          | .posted, false | .delayed, false => 4
        | 2 => x.inst % 4096 + x.dom % 8192 * 65536
        | 3 => x.queue % 16384 + x.cls % 4 * 65536
        | 4 => match x.origin with
          | .host | .sample => x.reqId
          | .posted | .delayed => 0
        | 5 => if x.cls = 0 then x.deadline else 0
        | 6 => x.snap
        | 7 => x.budget - x.strokes
        | 8 => x.conts
        | 9 => x.csLast
        | 10 => (x.image.map fun m => m.image % 2 ^ 32 + m.version % 2 ^ 32 * 2 ^ 32).getD 0
        | _ => 0))

/-! ### Chapter 05: key instructions -/

/-- R211, R212, R226 to R235, R446, R815: a key instruction that passes its checks is pending after every earlier one, its kd
empty, with the status, the handle and the bytes that it will write. -/
def Obligations.KeyInstructionsPendInOrder : Prop :=
  ∀ (s : State) (i : Issue) (x : Item) (len : Nat),
    let c := i.core
    let u := issueSt s i
    let done (p : PendK) (m : Instr) :=
      ∃ t, exec m s = .next t ∧ Issued s t i x len ∧ PendsKey s t c p
    StaysInCode s i x len → locked u = false → kscOn s = true → txClosing x = false →
    (∀ kd gs g k, CoreReady s i (.key .kload kd 0 g gs) x len →
      (nameOfId (rd u c g).toNat).dom = x.imageDom → (nameOfId (rd u c g).toNat).idx ≠ 0 →
      (cfgAt s x.snap).keys.find? (fun k => k.name == nameOfId (rd u c g).toNat) = some k →
      windowOk u k.attrs = true → policyOkFor u (cfgAt s x.snap) x k = true →
      (takeRoom (modCtx (countLoad u c [some k] none) c fun y => y.wk kd none) x.inst k).isSome = true →
      done { op := .kload, kd := some kd, gs := gs, handle := some k
             wait := if resident s k.name then .ready else .fill } (.kload i kd gs g)) ∧
    (∀ kd gs g a, CoreReady s i (.key .kgen kd 0 g gs) x len → BlockReady u c x g 48 (fun _ => []) →
      s.bin.lockNew = false → parseAttrs ((blockAt u c g 48).take 32) = some a → rsvdOk (blockAt u c g 48) 40 8 = true →
      ¬(0x18 ≤ a.alg ∧ a.alg ≤ 0x1A) →
      let v := countLoad (notEligible u c) c [] (some a)
      createCheck v x a = 0 →
      let k := (nameKey v c x { a with generated := true }).1
      done { op := .kgen, kd := some kd, gs := gs, tag := x.strokes + 1, wait := .drbg, handle := some k
             ldm := [((rd u c g).toNat + 32, leBytes 8 (keyIdOf k.name))] } (.kgen i kd gs g)) ∧
    (∀ ka gs g y, CoreReady s i (.key .kattr 0 ka g gs) x len →
      let b := blockAt u c g 48
      BlockReady u c x g 48 (fun b => if fieldAt b 0 1 = 0 then [(refAt b 8, true)] else []) →
      kattrShape b = true → (u.core c).ctx.rk ka = some y →
      (fieldAt b 0 1 = 0 → bytesBusy u c (refAt b 8) = false →
        done { op := .kattr, gs := gs, dst := refAt b 8, out := attrReport u y } (.kattrRead i ka gs g)) ∧
      (fieldAt b 0 1 = 1 → y.name.idx = 0 → (∀ a, parseAttrs (slice b 16 32) = some a →
          a.dual = false ∧ narrows y.attrs { a with generated := y.attrs.generated } = true) →
        ∃ t, exec (.kattrRestrict i ka gs g) s = .next t ∧ Issued s t i x len ∧ PendsKey s t c { op := .kattr, gs := gs } ∧
          ∀ r z, (s.core c).ctx.rk r = some z → (t.core c).ctx.rk r =
            some (if z.name = y.name then
              { z with attrs := { (parseAttrs (slice b 16 32)).getD {} with generated := y.attrs.generated } } else z)) ∧
      (fieldAt b 0 1 = 2 → y.name.idx = 0 →
        done { op := .kattr, kd := some ka, gs := gs } (.kattrDelete i ka gs g)) ∧
      (∀ j, x.tx = some j → y.name.idx ≠ 0 →
        (fieldAt b 0 1 = 1 → Tx.fits j 64 = true → ∀ a, parseAttrs (slice b 16 32) = some a →
          a.dual = false → narrows y.attrs { a with generated := y.attrs.generated } = true →
          ∃ t z, exec (.kattrRestrict i ka gs g) s = .next t ∧ Issued s t i x len ∧ PendsKey s t c { op := .kattr, gs := gs } ∧
            (t.core c).item = some z ∧ z.tx = some { j with recs := j.recs ++
              [{ tag := x.strokes + 1, recd := .keyAttrs y.name { a with generated := y.attrs.generated }, size := 64 }] }) ∧
        (fieldAt b 0 1 = 2 → Tx.fits j 32 = true → y.attrs.dual = false →
          ∃ t z, exec (.kattrDelete i ka gs g) s = .next t ∧ Issued s t i x len ∧ PendsKey s t c { op := .kattr, gs := gs } ∧
            (t.core c).item = some z ∧ z.tx = some { j with recs := j.recs ++
              [{ tag := x.strokes + 1, recd := .keyDelete y.name, size := 32 }] }))) ∧
    ∀ ka, CoreReady s i (.key .kdrop 0 ka 0 0) x len → done { op := .kdrop, kd := some ka } (.kdrop i ka)

/-- R232 to R234, R446, R815: KDERIVE, KWRAP and KUNWRAP that pass their checks send one engine job of their crew and are
pending on it: KDERIVE with the derived key, KUNWRAP with the key that the bytes wrap, KWRAP with the wrapped bytes. -/
def Obligations.KeyEngineInstructionsSendAJob : Prop :=
  ∀ (s : State) (i : Issue) (x : Item) (len e : Nat),
    let c := i.core
    let u := issueSt s i
    let done (kind : SymKind) (n : Nat) (op : JobOp) (key : KeyRec) (p : PendK) (m : Instr) :=
      ∃ t, exec m s = .next t ∧ Issued s t i x len ∧
      PendsKey s t c { p with wait := .job n } ∧ Queued s t kind e n c x op (some key)
    StaysInCode s i x len → locked u = false → kscOn s = true → txClosing x = false →
    (∀ kd ka gs g a y, CoreReady s i (.key .kderive kd ka g gs) x len →
      let b := blockAt u c g 64
      let kind := if fieldAt b 0 1 = 2 then SymKind.hash else .cipher
      BlockReady u c x g 64 (fun b => [(refAt b 8, false)]) → bytesBusy u c (refAt b 8) = false →
      (u.core c).ctx.rk ka = some y → deriveAttrs b y.attrs.alg = some a →
      useCheck (some y) eKdf [uDerive] (deriveSuits (fieldAt b 0 1)) = 0 →
      (fieldAt b 0 1 = 2 ∨ fieldAt b 0 1 = 3 → bitsIn a.usage y.attrs.usage = true) →
      createCheck (countLoad u c [some y] (some a)) x a = 0 → chooseEngine u kind (crewOf c) = .engine e →
      done kind ((if fieldAt b 0 1 = 2 then 2 else 1) * 2 ^ 60 + s.dsp.nextTicket)
        (.keyInstr (Config.keyJobBlocks (fieldAt b 0 1) (refAt b 8).len) none [refAt b 8] []) y
        { op := .kderive, kd := some kd, gs := gs, tag := x.strokes + 1
          handle := some { (nameKey (countLoad u c [some y] (some a)) c x a).1 with
                           material := deriveMaterial b y a (readRef u c x (refAt b 8)) } } (.kderive i kd ka gs g)) ∧
    (∀ kd ka gs g w k, CoreReady s i (.key .kwrap kd ka g gs) x len →
      let b := blockAt u c g 32
      let fmt := fieldAt b 0 1
      let header := if fmt = 3 then readRef u c x (refAt b 24) else []
      let pay := payloadOf k
      let n := if fmt = 3 then x9Len (x9Version w) header.length pay.length else kwLen pay.length
      BlockReady u c x g 32 (fun b => (refAt b 8, true) :: if fieldAt b 0 1 = 3 then [(refAt b 24, false)] else []) →
      bytesBusy u c (refAt b 8) = false → (fmt = 3 → bytesBusy u c (refAt b 24) = false ∧ (refAt b 24).valid = true) →
      1 ≤ fmt → fmt ≤ 3 → rsvdOk b 1 7 = true → (refAt b 8).valid = true →
      (u.core c).ctx.rk ka = some w → (u.core c).ctx.rk kd = some k → useCheck (some w) eCph [uWrap] (wrapSuits fmt) = 0 →
      k.attrs.exportable = true → (fmt = 3 → x9HeaderCheck k header = 0) → n ≤ (refAt b 8).len →
      (fmt = 1 → 16 ≤ pay.length ∧ pay.length % 8 = 0) → chooseEngine u .cipher (crewOf c) = .engine e →
      done .cipher (2 ^ 60 + s.dsp.nextTicket) (.keyInstr (if fmt = 3 then Config.keyJobBlocks 0 n else kwBlocks (n - 8)) (some k)
          (if fmt = 3 then [refAt b 24] else []) [refAt b 8]) w
        { op := .kwrap, gs := gs, dst := refAt b 8
          out := if fmt = 3 then x9Wrapped w k header (freeBytes s.free 32)
            else cryptoBytes .kwWrap (keyIn w ++ [leBytes 1 fmt, pay]) n
          ldm := [((rd u c g).toNat + 16, leBytes 4 n)] } (.kwrap i kd ka gs g)) ∧
    ∀ kd ka gs g w a, CoreReady s i (.key .kunwrap kd ka g gs) x len →
      let b := blockAt u c g 56
      let fmt := fieldAt b 0 1
      let src := refAt b 8
      BlockReady u c x g 56 (fun b => [(refAt b 8, false)]) → bytesBusy u c src = false →
      1 ≤ fmt → fmt ≤ 3 → rsvdOk b 1 7 = true → rsvdOk b 16 8 = true → src.valid = true →
      (fmt ≠ 3 → 16 ≤ src.len ∧ src.len % 8 = 0) → parseAttrs (slice b 24 32) = some a →
      (u.core c).ctx.rk ka = some w → useCheck (some w) eCph [uUnwrap] (wrapSuits fmt) = 0 →
      createCheck (countLoad u c [some w] (some a)) x a = 0 → chooseEngine u .cipher (crewOf c) = .engine e →
      let input := readRef u c x src
      let r := if fmt = 3 then x9Unwrapped w a input else kwUnwrapped fmt w a input
      done .cipher (2 ^ 60 + s.dsp.nextTicket)
        (.keyInstr (if fmt = 3 then Config.keyJobBlocks 0 src.len else kwBlocks (src.len - 8)) none [src] []) w
        { op := .kunwrap, kd := some kd, gs := gs, status := r.1, tag := x.strokes + 1
          handle := if r.1 = 0 then some { (nameKey (countLoad u c [some w] (some a)) c x a).1 with
                                           material := materialOf a.alg r.2 } else none } (.kunwrap i kd ka gs g)

/-- R211, R212, R214, R227, R231, R256, R257: what was pending is written. SERVICE_RESULT_READY writes a register result with
its bytes and CS_LAST (an RNG draws its bytes then), RNG_WAIT_TIMEOUT fails an RNG that its DRBG cannot serve,
KEY_CACHE_MISS_FILL readies a load, KEY_INSTR_COMPLETE writes the oldest key instruction's handle and status. -/
def Obligations.PendingResultsAreWritten : Prop :=
  ∀ (s : State) (c : CoreId) (x : Item), (s.core c).item = some x →
    (∀ d p rest, (s.core c).pendG = p :: rest → p.reg = d → p.wait = .ready →
      ∃ t, exec (.serviceResultReady c d) s = .next t ∧ (t.core c).pendG = rest ∧
        (t.core c).ldm = p.ldm.foldl (fun m w => Mem.write m w.1 w.2) (s.core c).ldm ∧
        (t.core c).ctx = (match p.second with
          | some w => ((s.core c).ctx.wg d p.value).wg w.1 w.2
          | none => (s.core c).ctx.wg d p.value) ∧
        (t.core c).item = some { x with csLast := p.status } ∧ (t.core c).pendK = (s.core c).pendK ∧
        ∀ e, e ≠ c → t.core e = s.core e) ∧
    (∀ d p rest off n b, (s.core c).pendG = p :: rest → p.reg = d → p.wait = .drbg → p.rngLen = some (off, n) →
      p.second = none → Generates s (crewOf c) n b →
      ∃ t, exec (.serviceResultReady c d) s = .next t ∧ (t.core c).pendG = rest ∧
        (t.core c).ldm = Mem.write (s.core c).ldm off b ∧
        (t.core c).ctx = (s.core c).ctx.wg d p.value ∧ (t.core c).item = some { x with csLast := p.status } ∧
        ∀ e, e ≠ c → t.core e = s.core e) ∧
    (∀ p rest, (s.core c).pendG = p :: rest → p.wait = .drbg → drbgReady s (crewOf c) = false →
      p.asked + 1600 ≤ s.mer.elapsed →
      exec (.rngWaitTimeout c) s = .next (s.setCore c { s.core c with
        pendG := { p with wait := .ready, rngLen := none, status := 0x0306, value := 0x0306 } :: rest })) ∧
    (∀ p rest m k, (s.core c).pendK = p :: rest → p.wait = .fill → p.handle = some k → kscOn s = true →
      kscYields s c (fun q => q.wait == .fill) = false → resident s k.name = false →
      (MemEvent.readable m = true → s.ksc.kRecord.isSome = true → (∃ e ∈ s.ksc.cache, e.name = k.name) →
        SysServes s (entriesOf k) →
        ∃ t, exec (.keyCacheMissFill c ⟨m, true⟩) s = .next t ∧ (t.core c).pendK.head? = some { p with wait := .ready } ∧
          (t.core c).pendK.length = rest.length + 1 ∧ ∀ e ∈ t.ksc.cache, e.name = k.name → holdsKey e k = true) ∧
      (memWaits s m = true → exec (.keyCacheMissFill c ⟨m, true⟩) s = .next s) ∧
      (MemEvent.readable m = false → memWaits s m = false →
        ∃ u, exec (.keyCacheMissFill c ⟨m, true⟩) s = .next (memMeets u m) ∧
          (u.core c).pendK.head? = some { p with wait := .ready, status := 0x0501, handle := none } ∧
          ∀ e ∈ u.ksc.cache, e.name ≠ k.name)) ∧
    (∀ p rest k r, (s.core c).pendK = p :: rest → p.wait = .ready → p.op = .kload → p.kd = some r → p.status = 0 →
      p.handle = some k → p.ldm = [] → p.out = [] → kscOn s = true →
      kscYields s c (fun q => q.wait == .ready || q.wait == .drbg) = false →
      ∃ t, exec (.keyInstrComplete c) s = .next t ∧ (t.core c).pendK = rest ∧
        (t.core c).ctx = ((s.core c).ctx.wk r (some k)).wg p.gs 0 ∧ (t.core c).item = some { x with csLast := 0 } ∧
        ∀ e, e ≠ c → t.core e = s.core e) ∧
    ∀ p rest k r b iv, (s.core c).pendK = p :: rest → p.wait = .drbg → p.op = .kgen → p.kd = some r → p.status = 0 →
      p.handle = some k → p.out = [] → kscOn s = true →
      kscYields s c (fun q => q.wait == .ready || q.wait == .drbg) = false →
      Generates s (crewOf c) (secretLen k.attrs.alg k.attrs.size) b → SysServes s (1 + entriesOf k) → Draws s .ksc 5 iv →
      crewOf c < s.variant.crews →
      let k1 := { k with material := materialFrom k.attrs.alg b, ivFixed := leNat iv }
      let k2 := { k1 with kcv := kcvOf k1 }
      s.ksc.cache.any (fun e => e.name == k.name) = false → entriesOf k ≤ freeFor s.variant (cfgV s) s.ksc.cache x.inst →
      ∃ t, exec (.keyInstrComplete c) s = .next t ∧ (t.core c).pendK = rest ∧
        (t.core c).ctx = ((s.core c).ctx.wk r (some k2)).wg p.gs 0 ∧
        (t.core c).ldm = p.ldm.foldl (fun m w => Mem.write m w.1 w.2) (s.core c).ldm ∧
        t.ksc.cache.any (fun e => e.name == k.name && e.inst == x.inst && holdsKey e k2) = true

/-! ### Chapter 05: calls, endings, queueing, journal -/

/-- R221, R250 to R252: PKCALL and LTCALL that pass screening give a ticket and queue one job that holds a copy of its
inputs. -/
def Obligations.CallsQueueAPoolJob : Prop :=
  ∀ (s : State) (i : Issue) (x : Item) (len : Nat) (gs g : GReg),
    let c := i.core
    let u := issueSt s i
    let b := blockAt u c g 64
    let ins := ((callRefs b).take 3).map fun r => if r.valid then readRef u c x r else []
    StaysInCode s i x len → x.tickets.length < 32 → BlockReady u c x g 64 callUses →
    (∀ r ∈ (callRefs b).take 3, r.valid = true → bytesBusy u c r = false) → locked u = false →
    (∀ ka k, CoreReady s i (.key .pkKeyed 0 ka g gs) x len → bneKind (fieldAt b 0 2) = some k →
      screenBne u x.inst true ((u.core c).ctx.rk ka) b ins = 0 →
      ∃ t, exec (.pkcallKeyed i ka gs g) s = .next t ∧ Issued s t i x len ∧
        GotTicket t i x gs (4 * 2 ^ 60 + s.dsp.nextTicket) none ∧
        t.bne.queue = s.bne.queue ++ [bneJob k (callJob c x (4 * 2 ^ 60 + s.dsp.nextTicket) (rd u c g).toNat true
          ((u.core c).ctx.rk ka) b ins)] ∧ t.bne.engines = s.bne.engines ∧ t.lte = s.lte) ∧
    (∀ k, CoreReady s i (.key .pkPublic 0 0 g gs) x len → bneKind (fieldAt b 0 2) = some k →
      screenBne u x.inst false none b ins = 0 →
      ∃ t, exec (.pkcallPublic i gs g) s = .next t ∧ Issued s t i x len ∧
        GotTicket t i x gs (4 * 2 ^ 60 + s.dsp.nextTicket) none ∧
        t.bne.queue = s.bne.queue ++ [bneJob k (callJob c x (4 * 2 ^ 60 + s.dsp.nextTicket) (rd u c g).toNat false none b
          ins)] ∧ t.bne.engines = s.bne.engines ∧ t.lte = s.lte) ∧
    (∀ ka k, CoreReady s i (.key .ltKeyed 0 ka g gs) x len → lteKind (fieldAt b 0 2) = some k →
      screenLte u x.inst true ((u.core c).ctx.rk ka) (((u.core c).ctx.rk ka).any fun k => inOwnTx x k.name) b ins = 0 →
      ∃ t, exec (.ltcallKeyed i ka gs g) s = .next t ∧ Issued s t i x len ∧
        GotTicket t i x gs (5 * 2 ^ 60 + s.dsp.nextTicket) none ∧
        t.lte.queue = s.lte.queue ++ [lteJob k (callJob c x (5 * 2 ^ 60 + s.dsp.nextTicket) (rd u c g).toNat true
          ((u.core c).ctx.rk ka) b ins)] ∧ t.lte.engines = s.lte.engines ∧ t.bne = s.bne) ∧
    ∀ k, CoreReady s i (.key .ltPublic 0 0 g gs) x len → lteKind (fieldAt b 0 2) = some k →
      screenLte u x.inst false none false b ins = 0 →
      ∃ t, exec (.ltcallPublic i gs g) s = .next t ∧ Issued s t i x len ∧
        GotTicket t i x gs (5 * 2 ^ 60 + s.dsp.nextTicket) none ∧
        t.lte.queue = s.lte.queue ++ [lteJob k (callJob c x (5 * 2 ^ 60 + s.dsp.nextTicket) (rd u c g).toNat false none b
          ins)] ∧ t.lte.engines = s.lte.engines ∧ t.bne = s.bne

/-- R123, R124, R128, R251, R259 to R262, R267: REPLY, DONE and CONT free their core; one that does not end the re-run of a
sample leaves every other core as it was. While the chain's commit is not yet visible, the reply is held for it; CONT parks
the chain with its registers, the ticket and the LDM bytes below the carry length. -/
def Obligations.EndingsFreeTheCore : Prop :=
  ∀ (s : State) (i : Issue) (x : Item) (len : Nat),
    let c := i.core
    let u := issueSt s i
    let freed (t : State) := (t.core c).item = none ∧ (∀ r, (t.core c).ctx.k.get r = none) ∧
      (x.sample = none →
        (t.core c).ldm = (s.core c).ldm ∧ (t.core c).owner = some x.inst ∧ ∀ e, e ≠ c → t.core e = s.core e)
    settled u c = true →
    (∀ a, CoreReady s i (.svc .reply 0 a 0) x len → (rd u c a).toNat < 2 ^ 32 →
      (rd u c a).toNat / 65536 = 0 ∨ 0x0200 ≤ (rd u c a).toNat / 65536 ∧ (rd u c a).toNat / 65536 ≤ 0x03FF →
      (rd u c a).toNat % 65536 ≤ x.replyCap →
      ∃ t, exec (.reply i a) s = .next t ∧ freed t ∧
        ∀ id n, x.origin = .host → x.sess = some id → x.committed = some n → s.ksc.v < n → s.prl.joined = false →
          let r : Reply := { reqId := x.reqId, status := (rd u c a).toNat / 65536, csn := n, class0 := x.cls == 0
                             payload := Mem.read x.rpl 0 ((rd u c a).toNat % 65536), own := true }
          { csn := n, sess := id, reply := r } ∈ t.net.held) ∧
    (CoreReady s i (.svc .done 0 0 0) x len →
      ∃ t, exec (.done i) s = .next t ∧ freed t ∧
        ∀ id n, x.origin = .host → x.sess = some id → x.committed = some n → s.ksc.v < n → s.prl.joined = false →
          let r : Reply := { reqId := x.reqId, status := 0, csn := n, class0 := x.cls == 0, own := true }
          { csn := n, sess := id, reply := r } ∈ t.net.held) ∧
    ∀ a b k, CoreReady s i (.svc .cont 0 a b) x len → (rd u c b).toNat ≤ 4096 → k ∈ x.tickets →
      k.num = (rd u c a).toNat → k.num / 2 ^ 60 = 4 ∨ k.num / 2 ^ 60 = 5 → k.bound = false →
      (∀ j ∈ x.tickets, j.num = k.num → j.done = none) →
      beyondCarry u k.num (64 * ceilDiv (rd u c b).toNat 64) = false → contUse s < 262144 → Mem.wf (s.core c).ldm = true →
      ∃ t w y, exec (.cont i a b) s = .next t ∧ freed t ∧ t.dsp.parked = s.dsp.parked ++ [w] ∧ w.carry = some y ∧
        w.item.serial = x.serial ∧ w.item.strokes = x.strokes + 1 ∧ w.item.reserved = false ∧ y.ticket = k.num ∧
        y.ctx = { (s.core c).ctx with pc := (seqNext (s.core c).ctx len).1, loop := (seqNext (s.core c).ctx len).2 } ∧
        ∀ o, Mem.get y.ldm o = if o < 64 * ceilDiv (rd u c b).toNat 64 then Mem.get (s.core c).ldm o else 0

/-- R264 to R266, R296: POST and DELAY that pass their checks, outside a transaction and with no commit pending, enqueue one
item with the block's fields; a DELAY is due at its time or the next tick. -/
def Obligations.PostAndDelayEnqueueOneItem : Prop :=
  ∀ (s : State) (i : Issue) (x : Item) (len : Nat) (d a : GReg),
    let c := i.core
    let u := issueSt s i
    let blk := blockAt u c a 32
    let fields (y : Item) := y.queue = fieldAt blk 0 2 ∧ y.entry = fieldAt blk 2 2 ∧ y.cls = fieldAt blk 4 1 ∧
      y.payload = readRef u c x (refAt blk 16) ∧ y.dom = x.imageDom ∧ y.serial = s.dsp.nextSerial ∧ y.sess = none
    StaysInCode s i x len → BlockReady u c x a 32 (fun b => [(refAt b 16, false)]) → bytesBusy u c (refAt blk 16) = false →
    postCheck u x blk = 0 → x.tx = none → x.committed = none → x.sample = none →
    (CoreReady s i (.svc .post d a 0) x len →
      ∃ t y, exec (.post i d a) s = .next t ∧ Issued s t i x len ∧ Pends s t c { reg := d } ∧
        t.dsp.work = s.dsp.work ++ [{ item := y }] ∧ fields y ∧ y.origin = .posted ∧ t.dsp.delay = s.dsp.delay) ∧
    ∀ b, CoreReady s i (.svc .delay d a b) x len → (rd u c b).toNat < s.mer.t + 2 ^ 24 * 16000 → delayUse s < 1048576 →
      ∃ t e, exec (.delay i d a b) s = .next t ∧ Issued s t i x len ∧ Pends s t c { reg := d } ∧
        t.dsp.delay = s.dsp.delay ++ [e] ∧ e.due = max (rd u c b).toNat (s.mer.t + 1) ∧ e.seq = s.dsp.nextSeq ∧
        fields e.item ∧ e.item.origin = .delayed ∧ t.dsp.work = s.dsp.work

/-- R266: inside an open transaction POST and DELAY only reserve their entry. -/
def Obligations.PostsInATransactionAreReserved : Prop :=
  ∀ (s : State) (i : Issue) (x : Item) (len : Nat) (d a : GReg) (j : Tx),
    let c := i.core
    let u := issueSt s i
    let blk := blockAt u c a 32
    StaysInCode s i x len → BlockReady u c x a 32 (fun b => [(refAt b 16, false)]) → bytesBusy u c (refAt blk 16) = false →
    postCheck u x blk = 0 → x.tx = some j → j.closing = false → x.sample = none →
    CoreReady s i (.svc .post d a 0) x len →
    ∃ t r, exec (.post i d a) s = .next t ∧ Pends s t c { reg := d } ∧ t.dsp.reserved = s.dsp.reserved ++ [r] ∧
      r.owner = x.serial ∧ r.csn = none ∧ r.due = none ∧ r.item.queue = fieldAt blk 0 2 ∧ t.dsp.work = s.dsp.work ∧
      t.dsp.delay = s.dsp.delay

/-- R268 to R272, R635: JBEGIN opens an empty transaction; JPUT adds a record that passes its checks; JCOMMIT gives the
records the next CSN and the chain digest in one commit and closes the transaction; JABORT discards it. -/
def Obligations.JournalInstructions : Prop :=
  ∀ (s : State) (i : Issue) (x : Item) (len : Nat),
    let c := i.core
    let u := issueSt s i
    StaysInCode s i x len →
    (∀ d, CoreReady s i (.svc .jbegin d 0 0) x len → x.tx = none →
      ∃ t, exec (.jbegin i d) s = .next t ∧ Issued s t i x len ∧ Pends s t c { reg := d } ∧
        (t.core c).item = some { x with strokes := x.strokes + 1, tx := some {} }) ∧
    (∀ d a b j r, CoreReady s i (.svc .jput d a b) x len → (rd u c a).toNat % 8 = 0 →
      (rd u c a).toNat + (rd u c b).toNat ≤ 65536 →
      bytesBusy u c (rangeOf .ldm (rd u c a).toNat (rd u c b).toNat) = false → x.priv = true → x.tx = some j →
      16 ≤ (rd u c b).toNat → (rd u c b).toNat ≤ 1024 → Tx.fits j (rd u c b).toNat = true → j.closing = false →
      parseJput (Mem.read (s.core c).ldm (rd u c a).toNat (rd u c b).toNat) = some r →
      checkRecord u (cfgAt u x.snap) r (txCfg u x.snap j) = 0 → quorumOf r = none →
      ∃ t, exec (.jput i d a b) s = .next t ∧ Issued s t i x len ∧ Pends s t c { reg := d } ∧
        (t.core c).item = some { x with
          strokes := x.strokes + 1
          tx := some { j with recs := j.recs ++ [{ tag := 0, recd := .conf r, size := (rd u c b).toNat }] } }) ∧
    (∀ d j, CoreReady s i (.svc .jcommit d 0 0) x len → (s.core c).pendK = [] → x.tx = some j → j.recs ≠ [] →
      j.ceremonies = [] → j.closing = false → x.sample = none → kscOn s = true → x.origin ≠ .host →
        s.prl.state ≠ .divergent → s.ksc.readOnly = false →
      conflicts s x.snap (j.recs.map (·.recd)) = false → sumsFit s (j.recs.map (·.recd)) = true →
      loadsPass s (cfgAt s x.snap) (j.recs.map (·.recd)) = true → s.prl.joined = false → s.prl.peerJoining = false →
      ∃ t y, exec (.jcommit i d) s = .next t ∧ Pends s t c { reg := d } ∧ (t.core c).item = some y ∧ y.tx = none ∧
        y.committed = some (lastCsn s + 1) ∧ t.ksc.v = s.ksc.v ∧
        t.ksc.commits = s.ksc.commits ++ [{ csn := lastCsn s + 1, recs := j.recs.map (·.recd), requester := none
                                            digest := chainDigest (lastDigest s) (lastCsn s + 1) (j.recs.map (·.recd)) }]) ∧
    ∀ j, CoreReady s i (.svc .jabort 0 0 0) x len → (s.core c).pendK = [] → x.tx = some j → j.closing = false →
      ∃ t y, exec (.jabort i) s = .next t ∧ (t.core c).item = some y ∧ y.tx = none ∧ y.csLast = 0 ∧
        y.committed = x.committed ∧ t.ksc.commits = s.ksc.commits ∧
        (∀ r ∈ t.dsp.reserved, ¬(r.owner = x.serial ∧ r.csn = none)) ∧
        ∀ r k, (t.core c).ctx.rk r = some k → k.name ∉ createdKeys j

/-- R133, R134, R140, R142, R165, R185 to R187, R207, Table 3.7: a spent budget, a reserved encoding, a CALL with 16 return
offsets, a RET with none, a jump out of the code and a store beyond LDM end the chain with its status: the core is free, its
handles are empty, and unless it ran a sample again LDM stands but for what streaming jobs had written, no other core changes,
and the status is counted against the instance. -/
def Obligations.ProgramFaultsEndTheChain : Prop :=
  ∀ (s : State) (i : Issue) (x : Item) (len : Nat),
    let c := i.core
    let k := (s.core c).ctx
    let ended (m : Instr) (cause : Nat) := ∃ t, exec m s = .next t ∧ FaultEnds s t c x cause
    ((s.core c).item = some x → x.budget ≤ x.strokes → ended (.strokeBudgetExhausted c) 0) ∧
    ((s.core c).item = some x → x.strokes < x.budget → MemEvent.readable (fetchEvent s i) = true →
      decodeAt x.code k.pc = .reserved → ended (.reservedEncoding i) 2) ∧
    (∀ off, CoreReady s i (.jmp true off) x len → 16 ≤ k.stack.length → ended (.call i off) 4) ∧
    (∀ a, CoreReady s i (.callr a) x len → 16 ≤ k.stack.length → ended (.callr i a) 4) ∧
    (CoreReady s i .ret x len → k.stack = [] → ended (.ret i) 4) ∧
    (∀ off, CoreReady s i (.jmp false off) x len → ¬InCode x (k.pc + off.toInt) → ended (.j i off) 2) ∧
    ∀ d a p off, CoreReady s i (.mem .ldm true .d d a p off) x len → 65536 < effAddr s c a p off + 8 →
      ended (.std i .ldm d a p off) 1

/-! ### Chapter 10: jobs on the symmetric engines -/

/-- R290, R447, R449, R455 to R457: an idle engine starts its next job with the job's key in its key register, drawing a counter
value or random fill where the job needs one; at a yield boundary a job that is not held yields to a held one, its key register
cleared, and resumes with its key when none waits. -/
def Obligations.EnginesStartYieldAndResume : Prop :=
  ∀ (s : State) (k : SymKind) (e : Nat) (j : SymJob),
    e < (match k with | .check => 9 | _ => 16) →
    let x := engineOf s k e
    let at_ (j : SymJob) := { j with since := s.mer.elapsed }
    (x.running = none → x.recovering = false → x.online = true → nextJob s x = some j → jobBlocked s j = false →
      (needsCtr j = false → needsRand j = false →
        exec (.cipherJobStart k e) s = .next (setEngine s k e
          { x with queue := x.queue.filter (fun i => i.num != j.num), running := some (at_ j), keyReg := j.key })) ∧
      (∀ y, needsCtr j = true → j.key = some y → y.name.idx = 0 → (counterOf s y.name).next < 2 ^ 40 →
        ∃ t, exec (.cipherJobStart k e) s = .next t ∧ (engineOf t k e).keyReg = some y ∧
          (engineOf t k e).running = some (at_ { j with ctr := some (counterOf s y.name).next }) ∧
          (counterOf t y.name).next = (counterOf s y.name).next + 1) ∧
      (∀ r, needsCtr j = false → needsRand j = true → Generates s (engineCrew k e) 16 r →
        ∃ t, exec (.cipherJobStart k e) s = .next t ∧ (engineOf t k e).keyReg = j.key ∧
          (engineOf t k e).running = some (at_ { j with rand := r }))) ∧
    (∀ b, k ≠ .check → yieldBoundary s.pwr.effective = some b → x.running = some j → j.held = false → noYield j = false →
      (s.core j.core).item.isSome = true → x.queue.any (·.held) = true →
      let q := j.base + b * ((jobAt s j - j.base) / b)
      j.base < q → j.blocks ≤ q → jobBy j (s.mer.elapsed - 1) < q → q < jobOps j →
      ∃ t y, exec (.engineJobYield k e) s = .next t ∧ (engineOf t k e).running = none ∧ (engineOf t k e).keyReg = none ∧
        (engineOf t k e).saved = x.saved ++ [y] ∧ y.num = j.num ∧ y.op = j.op ∧ y.blocks = q ∧
        (engineOf t k e).yields = satInc 65535 x.yields ∧ (engineOf t k e).queue = x.queue) ∧
    ∀ rest, x.running = none → x.saved = j :: rest → x.recovering = false → x.online = true → x.queue.any (·.held) = false →
      exec (.engineJobResume k e) s = .next (setEngine s k e
        { x with running := some { at_ j with base := j.blocks }, keyReg := j.key, saved := rest })

/-- R222, R242, R247, R449 to R453, R463, R472: a cipher, hash or check-value job that never yielded and completes on its
chain's core frees its engine, clears the key register, counts its operations, delivers its bytes and completes its ticket
with status 0; no queue changes unless jobs of a sibling wait for this one. -/
def Obligations.JobsDeliverAtCompletion : Prop :=
  ∀ (s : State) (e : Nat) (j : SymJob) (x : Item), (s.core j.core).item = some x → x.serial = j.serial →
    j.scrub = false → j.status = 0 → j.blocks = 0 → j.out = none → Mem.wf (s.core j.core).ldm = true →
    let delivered (k : SymKind) (t : State) (st : Nat) := (engineOf t k e).running = none ∧ (engineOf t k e).keyReg = none ∧
      (engineOf t k e).ops = ((engineOf s k e).ops + jobOps j) % 2 ^ 64 ∧
      ((engineOf s k (siblingOf e)).queue = [] → (engineOf t k e).queue = (engineOf s k e).queue) ∧
      ∃ y, (t.core j.core).item = some y ∧
        y.tickets = x.tickets.map fun t => if t.num = j.num then { t with done := some st } else t
    (∀ b y, e < 16 → (engineOf s .cipher e).running = some j → j.op = .ciph b none → j.key = some y →
      (engineOf s .cipher e).keyReg = some y → b.mode = 1 → b.dst.space = 0 →
      b.src.space = 0 → b.src.len ≤ b.dst.len →
      ∃ t, exec (.cipherJobComplete e) s = .next t ∧ delivered .cipher t 0 ∧
        Mem.read (t.core j.core).ldm b.dst.off b.src.len = cryptoBytes (if b.dir = 0 then .ecbEnc else .ecbDec)
          (keyIn y ++ [Mem.read (s.core j.core).ldm b.src.off b.src.len]) b.src.len) ∧
    (∀ alg n src dst, e < 16 → (engineOf s .hash e).running = some j → j.op = .hash alg n src dst → dst.space = 0 →
      src.space = 0 → n ≤ dst.len →
      ∃ t, exec (.hashJobComplete e) s = .next t ∧ delivered .hash t 0 ∧
        Mem.read (t.core j.core).ldm dst.off n = digestOf alg n (Mem.read (s.core j.core).ldm src.off src.len)) ∧
    ∀ n src, e < 9 → (engineOf s .check e).running = some j → j.op = .cvupd n src → src.space = 0 →
      ∃ t, exec (.cvupdJobComplete e) s = .next t ∧ delivered .check t 0 ∧ (t.core j.core).ldm = (s.core j.core).ldm ∧
        cvOf t j.core n = { cvOf s j.core n with
          reg := crcBytes (cvOf s j.core n) (cvOf s j.core n).reg (Mem.read (s.core j.core).ldm src.off src.len) }

/-- R458, R459, Table 10.5: a fault takes the running job off its engine, which recovers, and the job's ticket completes
ENGINE_ABORTED; recovery that passes ends it, one that fails takes the engine offline; `kat_run` makes it recover. -/
def Obligations.EngineFaultsAndRecovery : Prop :=
  ∀ (s : State) (k : SymKind) (e : Nat), e < (match k with | .check => 9 | _ => 16) →
    let x := engineOf s k e
    (∀ j y, x.recovering = false → x.running = some j → (∀ b, j.op ≠ .macv b) → (∀ n w a b, j.op ≠ .keyInstr n w a b) →
      j.scrub = false → (s.core j.core).item = some y → y.serial = j.serial →
      ∃ t z, exec (.engineFaultDetected k e) s = .next t ∧ (engineOf t k e).running = none ∧
        (engineOf t k e).recovering = true ∧ (engineOf t k e).faults = min 65535 (x.faults + 1) ∧
        (t.core j.core).item = some z ∧
        z.tickets = y.tickets.map fun t => if t.num = j.num then { t with done := some 0x0305 } else t) ∧
    (x.recovering = true → x.running = none →
      exec (.engineRecoveryDone k e true) s = .next (setEngine s k e { x with recovering := false }) ∧
      ∃ t, exec (.engineRecoveryDone k e false) s = .next t ∧ (engineOf t k e).online = false ∧
        (engineOf t k e).katFail = true ∧ (engineOf t k e).recovering = false) ∧
    (x.online = true → ∃ t, exec (.cphKatRun k e) s = .next t ∧ (engineOf t k e).recovering = true ∧
      (engineOf t k e).running = x.running)

/-! ### Chapters 11 and 12: the pools -/

/-- R476, R477, R499: a pool loads its oldest job that some engine can take, onto the lowest-numbered such engine, a
lattice engine that caches the job's key first; a big-number job is passed only while no engine can take it. -/
def Obligations.PoolJobsLoadInOrder : Prop :=
  ∀ (s : State) (pre rest : List PoolJob) (j : PoolJob) (e : Nat), (∀ i ∈ pre ++ rest, i.num ≠ j.num) →
    let slotted (f : Nat) :=
      if f < s.variant.bneEngines then { bneOf s f with slotWords := slotLength s f } else bneOf s f
    (s.bne.queue = pre ++ j :: rest → (∀ i ∈ pre, ∀ f, ¬BneTakes s i f) → BneTakes s j e → (∀ f < e, ¬BneTakes s j f) →
      ∃ t, exec .bneJobLoad s = .next t ∧ t.bne.queue = pre ++ rest ∧
        bneOf t e = { slotted e with
          loaded := (bneOf s e).loaded ++ [j]
          first := if (bneOf s e).loaded.isEmpty then s.mer.elapsed else (bneOf s e).first } ∧
        (∀ f, f ≠ e → bneOf t f = slotted f) ∧
        t = { s with bne := { s.bne with queue := t.bne.queue, engines := t.bne.engines } }) ∧
    (s.bne.queue = pre → (∀ i ∈ pre, ∀ f, ¬BneTakes s i f) →
      ∃ t, exec .bneJobLoad s = .next t ∧ (∀ f, bneOf t f = slotted f) ∧
        t = { s with bne := { s.bne with engines := t.bne.engines } }) ∧
    (s.lte.queue = j :: rest → LteRoom s e →
      (cacheHit (lteOf s e) j = true ∧ (∀ f < e, LteRoom s f → cacheHit (lteOf s f) j = false) ∨
        (∀ f, LteRoom s f → cacheHit (lteOf s f) j = false) ∧ ∀ f < e, ¬LteRoom s f) →
      ∃ t, exec .lteJobLoad s = .next t ∧ (pre = [] → t.lte.queue = rest) ∧
        lteOf t e = { lteOf s e with
          loaded := (lteOf s e).loaded ++ [j]
          first := if (lteOf s e).loaded.isEmpty then s.mer.elapsed else (lteOf s e).first } ∧ (∀ f, f ≠ e →
            lteOf t f = lteOf s f) ∧
        t = { s with lte := { s.lte with queue := t.lte.queue, engines := t.lte.engines } })

/-- R485, R486, R508, R509, R514, R515: the first loaded job of an engine draws what it needs from the system DRBG, also while
another runs; on an idle engine it then starts with the settings in force. While the DRBG does not serve it waits, and it
completes `RNG_UNAVAILABLE` at its limit. A keyed lattice job finds its expansion in the cache or counts a miss. -/
def Obligations.PoolJobsStart : Prop :=
  ∀ (s : State) (e : Nat) (j : PoolJob) (rest : List PoolJob), (∀ i ∈ rest, i.num ≠ j.num) →
    ((bneOf s e).recovering = false → (bneOf s e).loaded = j :: rest →
      let starts (t : State) (r : PoolJob) := exec (.bneJobStart e) s = .next t ∧
        ((bneOf s e).running = none → bneOf t e = { bneOf s e with
          running := some { r with vas := vasOn s, blind128 := s.pwr.committed.blind128 }
          loaded := rest, first := s.mer.elapsed, ops := ((bneOf s e).ops + 1) % 2 ^ 64 }) ∧
        ((bneOf s e).running ≠ none → bneOf t e = { bneOf s e with loaded := r :: rest })
      (j.drawn = true ∨ bneDraws j = 0 → ∃ t, starts t j ∧ t = { s with bne := { s.bne with engines := t.bne.engines } }) ∧
      (j.drawn = false → bneDraws j ≠ 0 →
        (∀ b, Draws s .bne (bneDraws j) b → ∃ t, starts t { j with rand := b, drawn := true }) ∧
        (sysDraw s .bne (bneDraws j) = none → ∃ t, exec (.bneJobStart e) s = .next t ∧ t.bne = s.bne) ∧
        (sysReady s = false → j.aborted = false → j.scrub = false → (bneOf s e).first + 1600 ≤ s.mer.elapsed →
          ∃ t, exec (.bneRngTimeout e) s = .next t ∧
            (bneOf t e) = { bneOf s e with loaded := rest, first := s.mer.elapsed } ∧
            Delivered s.bne t.bne j St.rngUnavailable [] ∧ TicketDone s t j.serial j.num St.rngUnavailable))) ∧
    ((lteOf s e).recovering = false → (lteOf s e).loaded = j :: rest →
      let n := lteDraws (lteOf s e) j
      let starts (t : State) (r : PoolJob) := exec (.lteJobStart e) s = .next t ∧
        ((lteOf s e).running = none → (∃ y, (lteOf t e).running = some y ∧
            y = { r with vas := vasOn s, badExp := expansionBad s (lteOf s e) j }) ∧ (lteOf t e).loaded = rest ∧
          (∀ tag, expansionTag j = some tag →
            (cacheHit (lteOf s e) j = true → (lteOf t e).hits = min 65535 ((lteOf s e).hits + 1)) ∧
            (cacheHit (lteOf s e) j = false → (lteOf t e).misses = min 65535 ((lteOf s e).misses + 1)))) ∧
        ((lteOf s e).running ≠ none → lteOf t e = { lteOf s e with loaded := r :: rest })
      (n = 0 → ∃ t, starts t j ∧ t = { s with lte := { s.lte with engines := t.lte.engines } }) ∧
      (n ≠ 0 →
        (∀ b, Draws s .lte n b → ∃ t y, starts t y ∧ y.num = j.num ∧ y.drawn = true ∧
          (j.drawn = false → y.rand = b.take (lteRand j)) ∧
          (needsMask (lteOf s e) j = true → y.fill = some (b.drop (lteRand j)))) ∧
        (sysDraw s .lte n = none → ∃ t, exec (.lteJobStart e) s = .next t ∧ t.lte = s.lte) ∧
        (sysReady s = false → j.aborted = false → j.scrub = false → (lteOf s e).first + 1600 ≤ s.mer.elapsed →
          ∃ t, exec (.lteRngTimeout e) s = .next t ∧
            (lteOf t e) = { lteOf s e with loaded := rest, first := s.mer.elapsed } ∧
            Delivered s.lte t.lte j St.rngUnavailable [] ∧ TicketDone s t j.serial j.num St.rngUnavailable)))

/-- R252, R254, R479, R483, R484, R487, R488, R507, R511 to R513, R516: a job that completes frees its engine and leaves its
status and results in the output store. MODMUL, MODEXP and the public-key RSA operation give the residue itself, MODINV the
inverse or `PK_GENERIC`; a failed invariant gives `PK_INVARIANT` and the engine recovers; a signature that reaches 1,000
iterations gives `PK_GENERIC`; a derivation leaves its secret in the key cache under masks and its handle in the store (R372,
R481, R505); a call that failed screening completes with its status. -/
def Obligations.PoolJobsComplete : Prop :=
  (∀ (s : State) (e : Nat) (j : PoolJob) (k : BneKind), (bneOf s e).running = some j → Plain j → bneKind j.op = some k →
    let a := j.ins.getD 0 []
    let b := j.ins.getD 1 []
    let c := j.ins.getD 2 []
    let r := bneResult k (if j.keyed then j.key else none) j.ins j.rand
    let ends (t : State) (st : Nat) (out : List Byte) := (bneOf t e).running = none ∧ Delivered s.bne t.bne j st out ∧
      TicketDone s t j.serial j.num st
    (∀ b reg x, r.status = 0 → r.secret = some b → Derives s j reg x b →
      ∃ t y, exec (.bneJobComplete e true true) s = .next t ∧ ends t 0 r.out ∧ Derived s t j x b y ∧
        ∃ d ∈ t.bne.done, d.num = j.num ∧ d.handle = some (reg, y)) ∧
    (∀ ok, BneKind.hasInvariant k j.vas = false ∨ ok = true → r.secret = none ∨ j.spec = none →
      ∃ t, exec (.bneJobComplete e true ok) s = .next t ∧ ends t r.status (if r.status = 0 then r.out else []) ∧
        t.bne.queue = s.bne.queue) ∧
    (BneKind.hasInvariant k j.vas = true → (bneOf s e).recovering = false →
      ∃ t, exec (.bneJobComplete e true false) s = .next t ∧ ends t St.pkInvariant [] ∧
        (bneOf t e).recovering = true ∧ (bneOf t e).loaded = [] ∧ t.bne.queue = (bneOf s e).loaded ++ s.bne.queue ∧
        (bneOf t e).invariant = min 65535 ((bneOf s e).invariant + 1)) ∧
    (k = .modMul → 0 < leNat a → r.status = 0 ∧ leNat r.out = leNat b * leNat c % leNat a) ∧
    (k = .modExp → 0 < leNat a → r.status = 0 ∧ leNat r.out = leNat b ^ leNat c % leNat a) ∧
    (k = .modInv → 1 < leNat a → leNat b < leNat a →
      (Nat.gcd (leNat b) (leNat a) = 1 →
        r.status = 0 ∧ leNat r.out < leNat a ∧ leNat r.out * leNat b % leNat a = 1) ∧
      (Nat.gcd (leNat b) (leNat a) ≠ 1 → r.status = St.pkGeneric)) ∧
    (k = .rsaPub → j.keyed = false → 0 < beNat a → r.status = 0 ∧ beNat r.out = beNat c ^ beNat b % beNat a)) ∧
  (∀ (s : State) (e n : Nat) (j : PoolJob) (k : LteKind), (lteOf s e).running = some j → Plain j → lteKind j.op = some k →
    let r := lteResult s k (if j.keyed then j.key else none) j.ins j.rand
    let ends (t : State) (st : Nat) (out : List Byte) := (lteOf t e).running = none ∧ Delivered s.lte t.lte j st out ∧
      TicketDone s t j.serial j.num st
    (∀ b reg x, r.status = 0 → r.secret = some b → Derives s j reg x b →
      ∃ t y, exec (.lteJobComplete e n true) s = .next t ∧ ends t 0 r.out ∧ Derived s t j x b y ∧
        ∃ d ∈ t.lte.done, d.num = j.num ∧ d.handle = some (reg, y)) ∧
    (r.secret = none ∨ j.spec = none → ∃ t, exec (.lteJobComplete e n true) s = .next t ∧
      ends t r.status (if r.status = 0 then r.out else []) ∧
      (LteKind.signs k = true → r.status = 0 → (lteOf t e).signs = ((lteOf s e).signs + 1) % 2 ^ 64 ∧
        (lteOf t e).iters = ((lteOf s e).iters + max 1 (min 1000 n)) % 2 ^ 64 ∧
        (lteOf t e).iterMax = max (lteOf s e).iterMax (max 1 (min 1000 n)))) ∧
    (∀ tag mask, r.secret = none ∨ j.spec = none → expansionTag j = some tag → j.fill = some mask →
      (lteOf s e).cache.length ≤ 8 →
      ∃ t, exec (.lteJobComplete e n true) s = .next t ∧ (lteOf t e).cache.length ≤ 8 ∧ cacheHit (lteOf t e) j = true) ∧
    (LteKind.signs k = true → ∃ t, exec (.signIterationLimit e) s = .next t ∧ ends t St.pkGeneric [] ∧
      (lteOf t e).generic = min 65535 ((lteOf s e).generic + 1) ∧ (lteOf t e).iterMax = max (lteOf s e).iterMax 1000)) ∧
  ∀ (s : State) (c : CoreId) (x : Item) (ticket st : Nat), 4 ≤ ticket / 2 ^ 60 → (s.core c).item = some x →
    x.tickets = [{ num := ticket, fail := some st }] →
    (∀ y ∈ liveChains s, y ≠ x → y.serial ≠ x.serial ∧ ∀ u ∈ y.tickets, u.num ≠ ticket) →
    ∃ t, exec (.poolScreenFailComplete ticket) s = .next t ∧ TicketDone s t x.serial ticket st

/-- R491, R492, R495, R496, R510, R517, R518, Tables 11.9 and 12.6: a job that meets a fault completes `ENGINE_ABORTED` without
output; the fault is counted then, or at once on an idle engine, the loaded jobs return to the head of the queue, and the engine
recovers, which passes or takes it offline; `kat_run` starts recovery without a fault; a slot length takes effect on an engine
without jobs; an expanded key leaves the cache by age or by a flush. -/
def Obligations.PoolEnginesFaultAndRecover : Prop :=
  ∀ (s : State) (e : Nat),
    (bneOf s e).recovering = false → (lteOf s e).recovering = false →
    let bneRecovers (t : State) := (bneOf t e).faults = min 65535 ((bneOf s e).faults + 1) ∧
      (bneOf t e).recovering = true ∧ (bneOf t e).loaded = [] ∧ t.bne.queue = (bneOf s e).loaded ++ s.bne.queue
    let lteRecovers (t : State) := (lteOf t e).faults = min 65535 ((lteOf s e).faults + 1) ∧ (lteOf t e).cache = [] ∧
      (lteOf t e).recovering = true ∧ (lteOf t e).loaded = [] ∧ t.lte.queue = (lteOf s e).loaded ++ s.lte.queue
    ((bneOf s e).online = true →
      ((bneOf s e).running = none → ∃ t, exec (.bneFaultDetected e) s = .next t ∧ bneRecovers t) ∧
      (∀ j, (bneOf s e).running = some j → ∃ t, exec (.bneFaultDetected e) s = .next t ∧
        bneOf t e = { bneOf s e with running := some { j with faulted := true } } ∧ t.bne.queue = s.bne.queue) ∧
      ∃ t, exec (.bneKatRun e) s = .next t ∧ (bneOf t e).recovering = true ∧ (bneOf t e).faults = (bneOf s e).faults ∧
        (bneOf t e).running = (bneOf s e).running ∧ t.bne.queue = (bneOf s e).loaded ++ s.bne.queue) ∧
    (∀ j a b, (bneOf s e).running = some j → j.faulted = true → j.aborted = false → j.scrub = false →
      ∃ t, exec (.bneJobComplete e a b) s = .next t ∧ (bneOf t e).running = none ∧ bneRecovers t ∧
        Delivered s.bne t.bne j St.engineAborted [] ∧ TicketDone s t j.serial j.num St.engineAborted) ∧
    ((lteOf s e).online = true →
      ((lteOf s e).running = none → ∃ t, exec (.lteFaultDetected e) s = .next t ∧ lteRecovers t) ∧
      (∀ j, (lteOf s e).running = some j → ∃ t, exec (.lteFaultDetected e) s = .next t ∧
        lteOf t e = { lteOf s e with running := some { j with faulted := true } } ∧ t.lte.queue = s.lte.queue) ∧
      ∃ t, exec (.lteKatRun e) s = .next t ∧ (lteOf t e).recovering = true ∧ (lteOf t e).faults = (lteOf s e).faults ∧
        (lteOf t e).running = (lteOf s e).running ∧ t.lte.queue = (lteOf s e).loaded ++ s.lte.queue) ∧
    (∀ j n ok, (lteOf s e).running = some j → (lteKind j.op).isSome = true → j.faulted = true → j.aborted = false →
      j.scrub = false →
      ∃ t, exec (.lteJobComplete e n ok) s = .next t ∧ (lteOf t e).running = none ∧ lteRecovers t ∧
        Delivered s.lte t.lte j St.engineAborted [] ∧ TicketDone s t j.serial j.num St.engineAborted) ∧
    (e < 16 → (bneOf s e).running = none → (bneOf s e).loaded = [] →
      ∃ t, exec (.slotLengthChange e) s = .next t ∧
        (bneOf t e).slotWords = max 4 (min 128 (fld s (winBase 8 e + 0xC) 0 7)) ∧
        t = { s with bne := { s.bne with engines := t.bne.engines } }) ∧
    (∃ t, exec (.cacheFlush e) s = .next t ∧ lteOf t e = { lteOf s e with cache := [] } ∧
      ∀ f, f ≠ e → lteOf t f = lteOf s f) ∧
    (∃ t, exec (.expandedKeyAgeOut e) s = .next t ∧
      ∀ k, k ∈ (lteOf t e).cache ↔ k ∈ (lteOf s e).cache ∧ s.mer.elapsed < k.filled + remaskPeriod s) ∧
    (∀ u, u = modBne s e (fun x => { x with recovering := true }) → (bneOf s e).running = none → e < 16 →
      (∃ t, exec (.bneRecoveryDone e true) u = .next t ∧ bneOf t e = bneOf s e) ∧
      ∃ t, exec (.bneRecoveryDone e false) u = .next t ∧ bneOf t e = { bneOf s e with online := false, katFail := true }) ∧
    ∀ u, u = modLte s e (fun x => { x with recovering := true }) → (lteOf s e).running = none → e < 8 →
      (∃ t, exec (.lteRecoveryDone e true) u = .next t ∧ lteOf t e = lteOf s e) ∧
      ∃ t, exec (.lteRecoveryDone e false) u = .next t ∧ lteOf t e = { lteOf s e with online := false, katFail := true }

/-! ### Chapter 20: control space -/

/-- R80, R762 to R765: a write to a register that is present changes its fields by their access codes, no other register but the
block's flags; a differing value for an RWE field of an enabled block is refused and counted; `MER_ADRIFT_LIMIT` is clamped; an
absent or unlisted offset reads as zero and ignores writes. -/
def Obligations.RegisterWritesFollowAccessCodes : Prop :=
  ∀ (s : State) (ini : Initiator) (addr : Nat) (v : BitVec 32), MayAccess s ini addr true →
    (∀ r, PlainRegister s addr r →
      let old := stored s addr
      ∃ t, exec (.registerWrite ini addr v) s = .next t ∧
        (∀ f ∈ r.fields, ∀ b, f.lo ≤ b → b ≤ f.hi →
          (stored t addr).getLsbD b = writtenBit f old v (gated s addr) (s.locked.contains (addr, f.lo)) b) ∧
        (∀ a, a ≠ addr → a ≠ statusAddr addr → stored t a = stored s a) ∧
        ((∃ f ∈ r.fields, f.acc = .rwe ∧ ∃ b, f.lo ≤ b ∧ b ≤ f.hi ∧ old.getLsbD b ≠ v.getLsbD b) → gated s addr = true →
          alGet t.log.trbMod 40 = some (min 0xFFFFFFFF ((alGet s.log.trbMod 40).getD 0 + 1)))) ∧
    (addr = 0x0001001C → gated s addr = false → ∃ t, exec (.registerWrite ini addr v) s = .next t ∧
      (stored t addr).toNat = max 10000 (min 1000000000 v.toNat) ∧ ∀ a, a ≠ addr → stored t a = stored s a) ∧
    (unitPresent s.variant (regPlace addr).1 (regPlace addr).2.1 = false ∨ regDef addr = none →
      exec (.registerWrite ini addr v) s = .next s ∧ readReg s addr = (0, s))

/-- R539, R747, R760, R761, R774: a low word latches the words above it, which then read as latched; a high word is staged
and its low word commits the pair; a cleared counter reads zero; the source-disable fuses take bits until SERVICE; the
random data register gives its low word, latches the high one and is empty. -/
def Obligations.RegisterPairsAndCounters : Prop :=
  (∀ (s : State) (ini : Initiator) (addr : Nat) (r : RegDef) (v : BitVec 32) (rest : List (BitVec 32)),
    MayAccess s ini addr false → unitPresent s.variant (regPlace addr).1 (regPlace addr).2.1 = true →
    regDef addr = some r → addr ≠ 0x000A002C → wideWords s addr = some (v :: rest) →
    ∃ t, exec (.loReadLatch ini addr) s = .next t ∧ t.out = s.out ++ [.regRead addr v] ∧
      t = { s with out := t.out, shadows := t.shadows } ∧
      ∀ n < rest.length, (readReg t (addr + 4 + 4 * n)).1 = rest.getD n 0) ∧
  (∀ (s : State) (ini : Initiator) (v : BitVec 32) (k : Nat × Nat), MayAccess s ini 0x000E0010 true →
    MayAccess s ini 0x000E0014 true → rbit s 0x000E0004 1 = false → s.apu.pending = false → ruleShown s = some k →
    exec (.hiWriteStage ini 0x000E0014 v) s = .next { s with stages := alSet s.stages 0x000E0010 v } ∧
    ∃ t, exec (.loWriteCommit ini 0x000E0010 v) s = .next t ∧ t.apu.active = s.apu.active ∧
      (alGet t.apu.shadow k).getD {} = { (alGet s.apu.shadow k).getD {} with
        start := (((alGet s.stages 0x000E0010).getD 0).toNat % 256 * 2 ^ 32 + v.toNat) / 32 * 32 } ∧
      ∀ q, q ≠ k → alGet t.apu.shadow q = alGet s.apu.shadow q) ∧
  (∀ (s : State) (ini : Initiator) (e : Nat), e < s.variant.symEngines →
    (MayAccess s ini (0x00050018 + 0x1000 * e) true →
      ∃ t, exec (.counterClear ⟨ini, 0x00050018 + 0x1000 * e⟩) s = .next t ∧ t = { s with cph := t.cph } ∧
      engineOf t .cipher e = { engineOf s .cipher e with checkFail := 0 } ∧
      ∀ f, f ≠ e → engineOf t .cipher f = engineOf s .cipher f) ∧
    (MayAccess s ini 0x000D002C true →
      exec (.counterClear ⟨ini, 0x000D002C⟩) s = .next { s with mec := { s.mec with ce := 0, ue := 0 } })) ∧
  (∀ (s : State) (ini : Initiator) (m : BitVec 32), MayAccess s ini 0x0010001C true →
    (lcState s = .raw ∨ lcState s = .testUnlocked ∨ lcState s = .provisioning →
      exec (.lcfSrcDisable ini m) s = .next { s with bin := { s.bin with disabled := s.bin.disabled ||| m.toNat % 2 ^ 29 } }) ∧
    (lcState s = .deployed →
      ∃ t, exec (.lcfSrcDisable ini m) s = .next t ∧ t.bin = s.bin ∧
        alGet t.log.trbMod 41 = some (min 0xFFFFFFFF ((alGet s.log.trbMod 41).getD 0 + 1)))) ∧
  ∀ (s : State) (ini : Initiator) (v : BitVec 64), MayAccess s ini 0x000A002C false → s.rng.data = some v →
    ∃ t, exec (.rngDataLoRead ini) s = .next t ∧ t.rng = { s.rng with data := none } ∧
      t.out = s.out ++ [.regRead 0x000A002C (v.setWidth 32)] ∧ (readReg t 0x000A0030).1 = (v >>> 32).setWidth 32

/-- R137, R198 to R200, R211, R684: CSRR writes the register's 32-bit value, zero-extended, and CSRW writes the low 32 bits of
its source; without privilege both end the chain `ILLEGAL_INSTRUCTION`, and a misaligned or refused address ends it
`ACCESS_FAULT`. -/
def Obligations.CsrInstructionsReachControlSpace : Prop :=
  ∀ (s : State) (i : Issue) (x : Item) (len : Nat) (d a b : GReg),
    let c := i.core
    let u := issueSt s i
    let n := (rd s c a).toNat
    let free (store : Bool) := x.priv = true ∧ n % 4 = 0 ∧ n ≤ 0x15FFFF ∧ apuRefuses u (csrAccess c x store) n 4 = none
    (CoreReady s i (.svc .csrr d a 0) x len → StaysInCode s i x len →
      (free false → ∃ t, exec (.csrr i d a) s = .next t ∧ Issued s t i x len ∧
        (d ≠ 0 → rd t c d = (readReg u n).1.setWidth 64) ∧ (∀ r, r ≠ d → rd t c r = rd s c r)) ∧
      (x.priv = false → ∃ t, exec (.csrr i d a) s = .next t ∧ FaultEnds s t c x 2) ∧
      (x.priv = true → n % 4 ≠ 0 → ∃ t, exec (.csrr i d a) s = .next t ∧ FaultEnds s t c x 1)) ∧
    (CoreReady s i (.svc .csrw 0 a b) x len → StaysInCode s i x len →
      (∀ r, free true → PlainRegister u n r →
        ∃ t, exec (.csrw i a b) s = .next t ∧ Issued s t i x len ∧ (∀ r, rd t c r = rd s c r) ∧
          ∀ f ∈ r.fields, ∀ k, f.lo ≤ k → k ≤ f.hi → (stored t n).getLsbD k =
            writtenBit f (stored s n) ((rd s c b).setWidth 32) (gated s n) (s.locked.contains (n, f.lo)) k) ∧
      (x.priv = false → ∃ t, exec (.csrw i a b) s = .next t ∧ FaultEnds s t c x 2) ∧
      ∀ w, x.priv = true → n % 4 = 0 → n ≤ 0x15FFFF → apuRefuses u (csrAccess c x true) n 4 = some w →
        ∃ t, exec (.csrw i a b) s = .next t ∧ FaultEnds s t c x 1 ∧ t.apu.faults = min 65535 (s.apu.faults + 1))

/-! ### Chapters 01 and 06: admission and the dispatcher -/

/-- R40, R275, R279, R284, R560, R596: a well-formed request record that passes every row of Table 1.4 joins its queue as one
item with the record's fields; a retained one leaves a PENDING entry; a class-0 item of a rated instance takes a token. The
module's own conditions refuse it first. -/
def Obligations.AdmittedRequestsJoinTheirQueue : Prop :=
  ∀ (s : State) (x : Session) (hdr payload : List Byte) (stamp : Nat) (b : QBlock),
    findSess s x.id = some x → x.mgmt = false → x.live = true → x.state ≠ .closing → s.prl.yielding = false →
    let q := fieldAt hdr 6 2
    let cls := fieldAt hdr 4 1 % 4
    (moduleCheck s = 0 → recordOk hdr payload = true → targetCheck s x.dom (some x.port) q (fieldAt hdr 8 2) = 0 →
      findRet s x.id (fieldAt hdr 0 4) = none → retRoom s x.id (replyRoom s q) = true → roomCheck s q = 0 →
      alGet (cfgV s).queues q = some b →
      ∃ t y, exec (.requestRecord x.id hdr payload stamp) s = .next t ∧ t.dsp.work = s.dsp.work ++ [{ item := y }] ∧
        y.serial = s.dsp.nextSerial ∧ t.dsp.nextSerial = s.dsp.nextSerial + 1 ∧ y.origin = .host ∧ y.inst = b.inst ∧
        y.dom = x.dom ∧ y.queue = q ∧ y.cls = cls ∧ y.entry = fieldAt hdr 8 2 ∧ y.reqId = fieldAt hdr 0 4 ∧
        y.sess = some x.id ∧ y.payload = payload ∧ y.admitted = s.mer.t ∧
        (y.deadline = if cls = 0 ∧ fieldAt hdr 16 8 = 0 then stamp + b.c0Offset else fieldAt hdr 16 8) ∧
        (cls ≠ 0 → y.reserved = false ∧ t.ins = s.ins) ∧
        (∀ sh z, cls = 0 → (cfgV s).share b.inst = some sh → 0 < sh.c0Rate → insRt s b.inst = some z →
          let have_ := min (sh.c0Burst * 16000000) (z.tokens + sh.c0Rate * (s.mer.elapsed - z.tokenAt))
          (16000000 ≤ have_ → y.reserved = true ∧ ∃ z', insRt t b.inst = some z' ∧ z'.tokens = have_ - 16000000) ∧
          (have_ < 16000000 → y.reserved = false)) ∧
        (if bitOf (fieldAt hdr 4 1) 2 then
          t.net.retention = s.net.retention ++
            [{ sess := x.id, reqId := y.reqId, digest := requestDigest hdr payload, room := replyRoom s q }]
        else t.net.retention = s.net.retention)) ∧
    (moduleCheck s ≠ 0 → ∃ t, exec (.requestRecord x.id hdr payload stamp) s = .next t ∧ t.dsp.work = s.dsp.work ∧
      t.cores = s.cores ∧ t.ins = s.ins)

/-- R111, R118, R120, R123, R277, R280, R295 and Table 3.1: with no held item due and no class promoted, the lowest-numbered
free core of a crew takes the class-0 item of the earliest deadline, with the snapshot V, the queue's budget and the
registers of Table 3.1; LDM of another instance is cleared first. -/
def Obligations.DispatchStartsTheEarliestItem : Prop :=
  ∀ (s : State) (crew : Nat) (c : CoreId) (rest : List CoreId) (w : Work) (im : Image) (pc : Nat) (b : QBlock),
    mayAssign s crew = true → serves s = true → freeCores s crew = c :: rest → holdPerCrew s ≤ heldInCrew s crew →
      s.pwr.limiting = false →
    (∀ k, 1 ≤ k → k ≤ 3 → vget s.dsp.credits k 0 ≤ 0) → s.prl.yielding = false →
    w ∈ s.dsp.work → w.item.cls = 0 → w.carry = none → (s.mer.t ≤ w.item.deadline) →
    (∀ v ∈ s.dsp.work, v.item.cls = 0 → v = w ∨ earlier w.item v.item = true) →
    boundEntry s (cfgV s) w.item = some (im, pc) → alGet (cfgV s).queues w.item.queue = some b →
    ∃ t y, exec (.dispatch crew) s = .next t ∧ (t.core c).item = some y ∧
      y = { w.item with held := false, snap := s.ksc.v, budget := b.budget, replyCap := b.replyCap, rpl := [], image := some im } ∧
      (t.core c).ctx.pc = pc ∧ (t.core c).ctx.loop = none ∧ (t.core c).ctx.stack = [] ∧
      (∀ r, (t.core c).ctx.k.get r = none) ∧
      (∀ r, rd t c r = if r = 1 then BitVec.ofNat 64 w.item.payload.length else if r = 2 then BitVec.ofNat 64 b.replyCap
        else if r = 3 then BitVec.ofNat 64 w.item.entry else 0) ∧
      (t.core c).ldm = (if (s.core c).owner = some w.item.inst then (s.core c).ldm else []) ∧
      (∀ e, e ≠ c → t.core e = s.core e) ∧
      t.dsp.work = s.dsp.work.filter fun v => v.item.serial ≠ w.item.serial

/-- R292, R297 to R300, R302, Table 6.7: a due delay entry joins its queue, at most 16 in a tick, class 0 taking its deadline
from the release; a coarse bucket moves when T reaches it; a completed ticket readies its parked chain ahead of its queue; a
class's credits are set each millisecond; the trace ring empties. -/
def Obligations.DispatcherTimersAndContinuations : Prop :=
  ∀ (s : State),
    (∀ d, d ∈ s.dsp.delay → d.due ≤ s.mer.t → serves s = true → s.prl.yielding = false →
      (∀ e ∈ s.dsp.delay, e = d ∨ s.mer.t < e.due) → s.dsp.relAt ≠ s.mer.elapsed ∨ s.dsp.relCount < 16 →
      let y : Item :=
        if d.item.cls = 0 ∧ d.item.deadline = 0 then
          { d.item with deadline := s.mer.t + (((alGet (cfgV s).queues d.item.queue).map (·.c0Offset)).getD 0) }
        else d.item
      releaseCheck s y = 0 →
      ∃ t, exec .delayListRelease s = .next t ∧ t.dsp.delay = s.dsp.delay.filter (fun e => e != d) ∧
        t.dsp.work = s.dsp.work ++ [{ item := { y with admitted := s.mer.t } }] ∧
        t.dsp.lag = max s.dsp.lag (min 0xFFFFFFFF (s.mer.t - d.due))) ∧
    (∃ t, exec .coarseBucketMove s = .next t ∧ t = { s with dsp := { s.dsp with delay := t.dsp.delay } } ∧
      t.dsp.delay.length = s.dsp.delay.length ∧
      ∀ n (h : n < s.dsp.delay.length) (k : n < t.dsp.delay.length), t.dsp.delay[n] =
        { s.dsp.delay[n] with coarse := s.dsp.delay[n].coarse && decide (s.mer.t < s.dsp.delay[n].due / 16000 * 16000) }) ∧
    (∀ w y, w ∈ s.dsp.parked → w.carry = some y → (∃ k ∈ w.item.tickets, k.num = y.ticket ∧ k.done.isSome = true) →
      (∀ v ∈ s.dsp.parked, v ≠ w → v.item.serial ≠ w.item.serial ∧ (v.carry.map (·.ticket)) ≠ some y.ticket) →
      ∃ t, exec (.continuationMatch y.ticket) s = .next t ∧ t.dsp.work = w :: s.dsp.work ∧
        t.dsp.parked = s.dsp.parked.filter (fun v => v != w) ∧ t.cores = s.cores) ∧
    (s.mer.elapsed / 16000 ≤ s.dsp.creditMs → exec .classCreditReset s = .next s) ∧
    (s.dsp.creditMs < s.mer.elapsed / 16000 → ∃ t, exec .classCreditReset s = .next t ∧
      t = { s with dsp := { s.dsp with credits := t.dsp.credits, creditMs := s.mer.elapsed / 16000 } } ∧
      vget t.dsp.credits 0 0 = vget s.dsp.credits 0 0 ∧
      ∀ k, 1 ≤ k → k ≤ 3 → vget t.dsp.credits k 0 =
        (min 25 (fld s 0x00020010 (8 * (k - 1)) 5) * s.variant.cores * 15000 : Nat)) ∧
    exec .traceClear s = .next { s with dsp := { s.dsp with
      trace := [], wptr := 0, wrapped := false, full := false, traceLost := 0, lag := 0 } }

/-! ### Chapter 07: instances at run time -/

/-- R284, R340 to R350, R356, Table 7.5: commands enter an instance's handling queue of eight events, overflow it, or are
rejected; an overflow counts as a fault, whose limit event overflows in its turn (log 104); the queue serves clear and reset
while `en` is 1; windows, the quiesce limit, quiescence and the end of a drain
change the state. -/
def Obligations.InstanceControl : Prop :=
  ∀ (s : State) (i : Nat) (x : InstRt), insRt s i = some x →
    (blockEn s 3 0 = true → x.hq.length < 8 →
      (∃ t, exec (.insCmdReset i) s = .next t ∧ insRt t i = some { x with hq := x.hq ++ [.reset] }) ∧
      ∃ t, exec (.insCmdClear i) s = .next t ∧ insRt t i = some { x with hq := x.hq ++ [.clear] }) ∧
    (blockEn s 3 0 = false → exec (.insCmdReset i) s = .next (setBit s 0x00030008 2) ∧
      exec (.insCmdClear i) s = .next (setBit s 0x00030008 2)) ∧
    (blockEn s 3 0 = true → 8 ≤ x.hq.length → x.winCount < 65535 →
      let limit := (((cfgV s).share i).map (·.faultLimit)).getD 0
      let limitToo := x.winCount + 1 = limit ∧ (x.state = .active ∨ x.state = .quiescing) ∧ HqEvent.faultLimit ∉ x.hq
      ∃ t y, exec (.insCmdReset i) s = .next t ∧ insRt t i = some y ∧ y.hq = x.hq ∧ rbit t 0x00030008 3 = true ∧
        (limitToo → y.ovf = min 65535 (x.ovf + 2)) ∧
        (¬limitToo → y.ovf = min 65535 (x.ovf + 1) ∧ y.winCount = x.winCount + 1)) ∧
    (blockEn s 3 0 = false → exec (.handlingQueueServe i) s = .next s ∧ exec (.faultWindowBoundary i) s = .next s) ∧
    (∀ rest, x.draining = false → blockEn s 3 0 = true →
      (x.hq = .clear :: rest → x.state = .faulted →
        ∃ t, exec (.handlingQueueServe i) s = .next t ∧
          insRt t i = some { x with hq := rest, state := .active, winStart := s.mer.elapsed, winCount := 0 }) ∧
      (x.hq = .reset :: rest → x.state = .active →
        ∃ t, exec (.handlingQueueServe i) s = .next t ∧
          insRt t i = some { x with hq := rest, state := .resetting, ending := .active, draining := true } ∧
          ((∀ j ∈ allSymJobs s, j.inst = i → j.scrub = false → ∀ z, (s.core j.core).item = some z → z.inst = i) →
            ∀ c y, (s.core c).item = some y → (t.core c).item = if y.inst = i then none else some y)) ∧
      (x.hq = .faultLimit :: rest → x.state = .active →
        ∃ t, exec (.handlingQueueServe i) s = .next t ∧
          insRt t i = some { x with hq := rest, state := .faulted, ending := .faulted, draining := true } ∧
          ∀ w ∈ t.dsp.work, w.item.inst ≠ i)) ∧
    (∀ sh, (cfgV s).share i = some sh →
      (blockEn s 3 0 = true → 0 < sh.faultWindow → x.winStart + sh.faultWindow * 16000 ≤ s.mer.elapsed →
        ∃ t n, exec (.faultWindowBoundary i) s = .next t ∧ insRt t i = some { x with winCount := 0, winStart := n } ∧
          n ≤ s.mer.elapsed ∧ s.mer.elapsed < n + sh.faultWindow * 16000 ∧
          (n - x.winStart) % (sh.faultWindow * 16000) = 0) ∧
      ∃ t, exec (.tokenRefill i) s = .next t ∧ insRt t i = some { x with
        tokens := min (sh.c0Burst * 16000000) (x.tokens + sh.c0Rate * (s.mer.elapsed - x.tokenAt))
        tokenAt := s.mer.elapsed }) ∧
    (x.state = .quiescing →
      (x.quiesceAt + max 1 (min 60000 (fld s 0x00030030 0 16)) * 16000 ≤ s.mer.elapsed →
        ∃ t, exec (.quiesceLimitExpiry i) s = .next t ∧
          insRt t i = some { x with state := .resetting, ending := .disabled, draining := true }) ∧
      (instOcc s i = 0 → ∃ t, exec (.instanceQuiesced i) s = .next t ∧ insRt t i = some { x with state := .disabled })) ∧
    (x.draining = true → drainBusy s i = false → ∃ t, exec (.drainComplete i) s = .next t ∧
      (x.ending ≠ .active → insRt t i = some { x with draining := false, state := x.ending }) ∧
      (x.ending = .active → insRt t i = some { x with
        draining := false, state := .active, winStart := s.mer.elapsed, winCount := 0 }) ∧
      ∀ c, (s.core c).item = none → (s.core c).owner = some i → (t.core c).ldm = [])

/-! ### Chapters 07 to 09 and 20: configuration records -/

/-- R47, R50, R270, R315, R317, R393, R418, R635, Tables 7.2, 9.3, 9.5: a configuration row that passes its own checks, its
quorum check and the conflict check becomes one commit under the next CSN, chained to the commit before it, uses up the
ceremony that authorised it, and is not yet visible; one that fails a check commits nothing and answers its status (18 rows).
-/
def Obligations.ConfigurationRecordsCommit : Prop :=
  ∀ (s : State) (c : Instr) (r : ConfRec), confOf c = some r → blockEn s 4 0 = true → serves s = true →
    (checkRecord s (cfgV s) r = 0 → quorumOk s r = true → s.prl.state ≠ .divergent → s.ksc.readOnly = false →
      conflicts s s.ksc.v [.conf r] = false → sumsFit s [.conf r] = true →
      ∃ t, exec c s = .next t ∧
        t.ksc = { committed s (.conf r) with loading := (fixLoads s (cfgV s) [.conf r]).ksc.loading } ∧
        ((∀ d i v dig, r ≠ .imageLoad d i v dig) → t.ksc.loading = s.ksc.loading) ∧
        (s.ksc.v ≤ lastCsn s → cfgV t = cfgV s) ∧
        t.out.getLast? = some (.txStatus 0 (lastCsn s + 1)) ∧
        ∀ x, authorising s r = some x → ∀ y ∈ t.qrm.cers, y.number = x.number → y.state = .carriedOut) ∧
    (checkRecord s (cfgV s) r ≠ 0 → (∀ d i v dig, r ≠ .imageLoad d i v dig) →
      ∃ t, exec c s = .next t ∧ t.ksc = s.ksc ∧ t.qrm = s.qrm ∧
        t.out.getLast? = some (.txStatus (checkRecord s (cfgV s) r) 0)) ∧
    (checkRecord s (cfgV s) r = 0 → quorumOk s r = false →
      ∃ t, exec c s = .next t ∧ t.ksc = s.ksc ∧ t.out.getLast? = some (.txStatus St.quorumRequired 0)) ∧
    (checkRecord s (cfgV s) r = 0 → quorumOk s r = true → s.prl.state ≠ .divergent → s.ksc.readOnly = true →
      ∃ t, exec c s = .next t ∧ t.ksc = s.ksc ∧ t.out.getLast? = some (.txStatus St.storeReadonly 0)) ∧
    (checkRecord s (cfgV s) r = 0 → quorumOk s r = true → s.prl.state ≠ .divergent → s.ksc.readOnly = false →
      conflicts s s.ksc.v [.conf r] = false → sumsFit s [.conf r] = false →
      ∃ t, exec c s = .next t ∧ t.ksc = s.ksc ∧ t.out.getLast? = some (.txStatus St.reservationLimit 0))

/-- R52, R54, R393, R395, R396: a commit becomes durable, in CSN order, once both dies hold its block, then visible in CSN
order; V moves by one commit, whose records are the whole change of the visible configuration; without durability nothing
becomes visible; the record area takes over commits without changing the configuration at any CSN from the trim limit on. -/
def Obligations.CommitsBecomeDurableThenVisible : Prop :=
  ∀ (s : State), JournalInOrder s →
    (commitsAbove s s.ksc.die0 ≠ [] → commitsAbove s s.ksc.die1 = [] → dieReports s = false) ∧
    (commitsAbove s s.ksc.die0 = [] → dieReports s = true) ∧
    (∀ m l, let die := dieReports s
      commitsAbove s (if die then s.ksc.die1 else s.ksc.die0) = m :: l → s.pwr.mainPower = true →
      let other := if die then s.ksc.die0 else s.ksc.die1
      ∃ t, exec .commitDurable s = .next t ∧ t.ksc.v = s.ksc.v ∧ t.ksc.commits = s.ksc.commits ∧
        t.ksc.base = s.ksc.base ∧ (if die then t.ksc.die1 else t.ksc.die0) = m.csn ∧
        (if die then t.ksc.die0 else t.ksc.die1) = other ∧
        t.ksc.durable = if m.csn ≤ other ∧ s.ksc.durable < m.csn then m.csn else s.ksc.durable) ∧
    (∀ m l, commitsAbove s s.ksc.v = m :: l →
      (mayAdvance s m = true → ∃ t, exec .commitVisible s = .next t ∧ t.ksc.v = m.csn ∧
        cfgV t = (cfgV s).applyCommit m) ∧
      (s.ksc.durable < m.csn → exec .commitVisible s = .next s)) ∧
    ∃ t, exec .recordAreaApply s = .next t ∧ t.ksc.v = s.ksc.v ∧ t.ksc.durable = s.ksc.durable ∧
      (∀ n, trimLimit s ≤ n → cfgAt t n = cfgAt s n) ∧
      ∀ m ∈ s.ksc.commits, m.csn ≤ trimLimit s → m ∉ t.ksc.commits

/-- R321, R378 to R382, R399, R400: a visit of the sweep gives an entry a fresh mask and keeps what it holds, once in a
period; an overdue mask raises a record; a key that nothing can reach is overwritten everywhere it is cached; its blocks are
erased, then its domain is; a block that has reached its rated erases, or one that failed, takes a spare, and the last spare
makes the store read-only. -/
def Obligations.KeysAreRemaskedAndErased : Prop :=
  ∀ (s : State) (n : KeyName) (d b : Nat),
    (∀ i e, cacheEntry s.ksc.cache i = some e → e.mask ≠ [] →
      (s.mer.elapsed / remaskPeriod s ≤ e.masked / remaskPeriod s → exec (.remaskVisit i) s = .next s) ∧
      (∀ m, e.masked / remaskPeriod s < s.mer.elapsed / remaskPeriod s → Draws s .ksc 64 m →
        ∃ t y, exec (.remaskVisit i) s = .next t ∧ cacheEntry t.ksc.cache i = some y ∧ y.mask = m ∧
          y.masked = s.mer.elapsed ∧
          (e.value.length ≤ 64 → e.mask.length = 64 → xorBytes y.value y.mask = xorBytes e.value e.mask) ∧
          ∀ k, k ≠ i → cacheEntry t.ksc.cache k = cacheEntry s.ksc.cache k)) ∧
    ((∃ x ∈ s.ksc.cache, ∃ e ∈ x.slots, e.masked + 32000000 < s.mer.elapsed) → rbit s 0x00040008 4 = false →
      ∃ t, exec .remaskLate s = .next t ∧ rbit t 0x00040008 4 = true ∧ t = { s with regs := t.regs, log := t.log }) ∧
    (n ∈ s.ksc.deleted → keyReachable s n = false →
      ∃ t, exec (.keyMaterialOverwrite n) s = .next t ∧ n ∉ t.ksc.deleted ∧ (∀ x ∈ t.ksc.cache, x.name ≠ n) ∧
        (∀ x ∈ s.ksc.cache, x.name ≠ n → x ∈ t.ksc.cache) ∧ (∀ e < 8, ∀ x ∈ (lteOf t e).cache, x.name ≠ n) ∧
        t.ksc.erase = s.ksc.erase ∧ t.ksc.commits = s.ksc.commits) ∧
    (keyReachable s n = true → exec (.keyMaterialOverwrite n) s = .next s) ∧
    (∃ t, exec (.nandBlockErase b) s = .next t ∧ (∀ e ∈ t.ksc.erase, e.block ≠ b) ∧
      (∀ e ∈ s.ksc.erase, e.block ≠ b → e ∈ t.ksc.erase) ∧ eraseCount t b = eraseCount s b + 1 ∧
      ∀ k, k ≠ b → eraseCount t k = eraseCount s k) ∧
    ((∀ e, e ∈ s.ksc.erases → Config.ratedErases e.1 ≤ e.2 →
        ∃ y ∈ s.ksc.erases, wornBlock s = y.1 ∧ Config.ratedErases y.1 ≤ y.2) ∧
      (1 < s.ksc.spares → exec .nandBlockRetire s = .next { s with free := s.free + 1, ksc := { s.ksc with
        spares := s.ksc.spares - 1, erases := alDel s.ksc.erases (wornBlock s) } }) ∧
      (s.ksc.spares = 1 → effective s 28 = 0 → ∃ t, exec .nandBlockRetire s = .next t ∧ t.ksc.spares = 0 ∧
        t.ksc.readOnly = true ∧ t.ksc.commits = s.ksc.commits)) ∧
    ((∀ e ∈ s.ksc.erase, e.key.dom ≠ d) → ∃ t, exec (.domainErasureComplete d) s = .next t ∧
      ∀ k, k ∈ t.ksc.erasing ↔ k ∈ s.ksc.erasing ∧ k ≠ d)

/-! ### Chapter 02: Meridian time -/

/-- R64, R76 to R80, R88, R98, Table 2.2: each tick T and elapsed time advance together by one, or by one more or less where the
rate correction has added up to a tick; the servo state follows Table 2.2; without main power only the RTC runs. -/
def Obligations.MeridianTimeAdvances : Prop :=
  ∀ (s : State) (slew : Int),
    (∃ t, exec (.meridianTick slew) s = .next t) ∧
    (s.pwr.mainPower = true →
      let r := if servoOn s then max (-100000) (min 100000 slew) else 0
      let a := s.mer.slewAcc + r
      let adv := if 1000000000 ≤ a then 2 else if a ≤ -1000000000 then 0 else 1
      ∃ t, exec (.meridianTick slew) s = .next t ∧ t.mer.t = (s.mer.t + adv) % 2 ^ 64 ∧
        t.mer.elapsed = s.mer.elapsed + adv ∧ t.mer.slewAcc = a - ((adv : Int) - 1) * 1000000000 ∧
        t.mer.offset = s.mer.offset - ((adv : Int) - 1) * 125 ∧ t.cores = s.cores ∧ t.net = s.net ∧ t.ksc = s.ksc ∧
        (t.mer.initialSet = false → t.mer.state = .acquiring) ∧
        (t.mer.initialSet = true → (adriftLimit s < t.mer.unc → t.mer.state = .adrift) ∧
          (t.mer.unc ≤ adriftLimit s → t.mer.state = .fix ∨ t.mer.state = .deadReckoning) ∧
          (t.mer.unc ≤ adriftLimit s → t.mer.state = .fix → ∃ n, t.mer.okSince = some n ∧ n + 160000000 ≤ t.mer.elapsed)) ∧
        (s.mer.qualified = false ∨ s.mer.initialSet = false ∨ servoOn s = false → s.mer.uAnchor ≠ 0xFFFFFFFF → t.mer.unc =
          min 0xFFFFFFFF (s.mer.uAnchor + ceilDiv (50 * (t.mer.elapsed - s.mer.uAt)) 16000000))) ∧
    (s.pwr.mainPower = false → s.bin.rtc + 1 < 2 ^ 64 → ∃ t, exec (.meridianTick slew) s = .next t ∧
      t = { s with bin := { s.bin with rtc := t.bin.rtc, rtcAcc := t.bin.rtcAcc } } ∧
      t.bin.rtc * 16000000 + t.bin.rtcAcc = s.bin.rtc * 16000000 + s.bin.rtcAcc + 32768)

/-- R84, R90, R93, R94, R97, R98, R105, R106: a pending forward step moves T and no elapsed time; ceremonies whose window it
passes lapse, and coarse buckets it passes join the fine list; with the servo off T is not stepped. In FIX the RTC is set from
T at the whole second that is due. -/
def Obligations.StepsMoveTimeAndFixSetsTheRtc : Prop :=
  ∀ (s : State),
    (∀ n, s.mer.pendingStep = some n → servoOn s = true → ∃ t, exec .forwardStep s = .next t ∧
      t.mer.t = (s.mer.t + n) % 2 ^ 64 ∧ t.mer.elapsed = s.mer.elapsed ∧ t.mer.pendingStep = none ∧
      t.mer.stepPending = false ∧ t.mer.offset = s.mer.offset - (n : Int) * 125 ∧
      t.qrm.cers.map (·.number) = s.qrm.cers.map (·.number) ∧
      (∀ x ∈ t.qrm.cers, x.state = .open → t.mer.t < x.close) ∧
      (s.prl.handbackAt = none → t.cores = s.cores ∧ t.ksc = s.ksc ∧ t.net = s.net ∧ t.prl = s.prl ∧
        ∀ d ∈ t.dsp.delay, d.coarse = true → t.mer.t < d.due / 16000 * 16000)) ∧
    (s.mer.pendingStep = none ∨ servoOn s = false → exec .forwardStep s = .next s) ∧
    (∀ n, s.mer.rtcNext = some n → n ≤ s.mer.t → s.mer.t ≤ n + 1 → s.mer.state = .fix → rbit s 0x00010004 3 = true →
      let v := s.mer.t * 32768 / 16000000
      exec .rtcSet s = .next { s with
        bin := { s.bin with rtc := v, rtcAcc := 0, rtcValid := true, rtcSetAt := v }
        mer := { s.mer with rtcNext := some (n + 1024 * 16000000) } }) ∧
    (s.mer.state ≠ .fix ∨ rbit s 0x00010004 3 = false ∨ s.mer.rtcNext = none → exec .rtcSet s = .next s)

/-- R69 to R75, R85, R86, R89 to R91, R580, R581 and Table 2.1: a Sync of the selected grandmaster is stamped, starts a path
delay exchange, and measures Δ, which is slewed up to 1 ms and below 0, stepped forward up to 1 s, and otherwise left to a
ceremony; the first one after the start sets T, or raises a conflict; a whole exchange gives the path delay; other messages
are counted, whatever `en` holds, and change nothing else but the port's timestamp; a better dataset replaces the grandmaster;
silence and a missing pulse lose it. -/
def Obligations.TimeSourcesMeasureTheOffset : Prop :=
  ∀ (s : State) (h : PtpHdr),
    let rej (u : State) : Host.Outcome State Fault Refusal :=
      .next { u with mer := { s.mer with ptpRej := min 0xFFFFFFFF (s.mer.ptpRej + 1) } }
    let ns (n : Nat) : Nat := n * 125 / 512
    (h.port ≤ 4 → ∀ lead, portOf (stampRx s h.port lead) h.port =
      { portOf s h.port with tsRx := (256 * s.mer.t - lead) % 2 ^ 64 }) ∧
    (∀ k two q o lead (x : Int), ptpOk s h = false ∨ k < -7 ∨ 0 < k →
      exec (.ptpSync h k two q o lead x) s = rej (stampRx s h.port lead)) ∧
    (ptpOk s h = false → (∀ q o (x : Int), exec (.ptpFollowUp h q o x) s = rej s) ∧
      (∀ a, exec (.ptpAnnounce h a) s = rej s) ∧ ∀ n, exec (.ptpDelayResp h n) s = rej s) ∧
    (h.event = none → exec (.ptpOtherMessage h) s = rej s) ∧
    (∀ lead, h.event = some lead → exec (.ptpOtherMessage h) s = rej (stampRx s h.port lead)) ∧
    (servoOn s = true →
    let measures (t : State) (d : Int) := t.mer.offset = 2 * d ∧ t.mer.qualified = true ∧
      t.mer.lastSync = s.mer.elapsed ∧ t.mer.t = s.mer.t ∧
      (d ≤ 1000000 → t.mer.pendingStep = none ∧ t.mer.stepPending = false) ∧
      (1000000 < d → d ≤ 1000000000 → t.mer.pendingStep = some ((d * 2).tdiv 125).toNat) ∧
      (1000000000 < d → t.mer.stepPending = true ∧ t.mer.pendingStep = none)
    (∀ k q o lead (x : Int), ptpOk s h = true → fromGm s h = true → -7 ≤ k → k ≤ 0 →
      let rx := 256 * s.mer.t - lead
      let d : Int := (o : Nat) + s.mer.pathDelay - ns rx
      (s.mer.initialSet = true →
        ∃ t, exec (.ptpSync h k false q o lead x) s = .next t ∧ measures t d ∧ t.out = s.out ++ [.delayReq h.port] ∧
          t.mer.exchange = some { rx := rx, tx := 256 * s.mer.t, origin := some o }) ∧
      (∃ t, exec (.ptpSync h k true q o lead x) s = .next t ∧ t.out = s.out ++ [.delayReq h.port] ∧
        t.mer = { s.mer with sync := some (q, ns rx), exchange := some { rx := rx, tx := 256 * s.mer.t } }) ∧
      (s.mer.initialSet = false → s.mer.qualified = false →
        let src := sourceAt s d
        ∃ t, exec (.ptpSync h k false q o lead x) s = .next t ∧ t.mer.qualified = true ∧ t.mer.elapsed = s.mer.elapsed ∧
          (seedHolds s src = true → t.mer.initialSet = true ∧ t.mer.acqConflict = false ∧
            t.mer.t = (if serves s then max src s.prl.peerTime else src) % 2 ^ 64) ∧
          (seedHolds s src = false → t.mer.initialSet = false ∧ t.mer.acqConflict = true ∧ t.mer.t = s.mer.t))) ∧
    (∀ q o rx (x : Int), ptpOk s h = true → fromGm s h = true → s.mer.initialSet = true → s.mer.sync = some (q, rx) →
      (∀ y, s.mer.exchange = some y → y.received = none) →
      ∃ t, exec (.ptpFollowUp h q o x) s = .next t ∧ measures t ((o : Nat) + s.mer.pathDelay - (rx : Nat)) ∧
        t.mer.exchange = s.mer.exchange.map fun y => { y with origin := some o }) ∧
    (∀ q o (x : Int), ptpOk s h = true → s.mer.sync = none → exec (.ptpFollowUp h q o x) s = .next s) ∧
    (ptpOk s h = true → ∀ a, ∃ t, exec (.ptpAnnounce h a) s = .next t ∧
      (s.mer.gm = none → t.mer = { s.mer with gm := some a, gmAt := s.mer.elapsed }) ∧
      (∀ g, s.mer.gm = some g → g.identity ≠ a.identity →
        (betterClock a g = true → t.mer.gm = some a ∧ t.mer.qualified = false) ∧ (betterClock a g = false → t = s))) ∧
    (ptpOk s h = true → fromGm s h = true → ∀ n,
      (s.mer.exchange = none → exec (.ptpDelayResp h n) s = .next s) ∧
      ∀ y, s.mer.exchange = some y →
        (y.origin = none → exec (.ptpDelayResp h n) s =
          .next { s with mer := { s.mer with exchange := some { y with received := some n } } }) ∧
        ∀ o, y.origin = some o → exec (.ptpDelayResp h n) s = .next { s with mer := { s.mer with
          exchange := none
          pathDelay := (((ns y.rx : Nat) : Int) - (o : Nat) + ((n : Nat) - ((ns y.tx : Nat) : Int))).toNat / 2 } }) ∧
    (∀ g, s.mer.gm = some g → s.mer.gmAt + 3 * g.interval ≤ s.mer.elapsed →
      ∃ t, exec .announceReceiptTimeout s = .next t ∧ t.mer.gm = none ∧ t.mer.qualified = false) ∧
    (s.mer.qualified = true → s.mer.lastSync + 64000000 ≤ s.mer.elapsed →
      ∃ t, exec .sourceQualificationLoss s = .next t ∧ t.mer.qualified = false ∧ t.mer.gm = s.mer.gm) ∧
    (rbit s 0x00010004 1 = true → s.mer.qualified = true → ∀ o : Int,
      ∃ t, exec (.mppsEdge o) s = .next t ∧
        (o.natAbs ≤ (stored s 0x00010020).toNat + 1000 → t.mer.ppsRun = s.mer.ppsRun + 1 ∧ t.mer.ppsMiss = 0 ∧
          t.mer.ppsGood = (s.mer.ppsGood || decide (15 ≤ s.mer.ppsRun))) ∧
        ((stored s 0x00010020).toNat + 1000 < o.natAbs → t.mer.ppsRun = 0 ∧ t.mer.ppsMiss = s.mer.ppsMiss + 1 ∧
          t.mer.ppsGood = (s.mer.ppsGood && decide (s.mer.ppsMiss < 3)) ∧
          t.mer.ppsRej = min 0xFFFFFFFF (s.mer.ppsRej + 1))))

/-! ### Chapter 13: random numbers -/

/-- R524 to R529, R532, R535 to R538: sources move through their tests over the samples given, a failure discards every
buffered seed, seeds need four healthy sources and are SHA3-256 of the raw bits, two of them instantiate the next instance and
one reseeds, and the data register is filled again. -/
def Obligations.RandomNumberBlock : Prop :=
  ∀ (s : State), s.pwr.mainPower = true → blockEn s 10 0 = true →
    (∀ n < 4, ∀ early late : List Bool, (early ++ late).length = 1024 →
      let ok := !rctBad (early ++ late) && !aptBad (early ++ late)
      (srcOf s n = .startTest → ∃ t, exec (.startupTestComplete n early late) s = .next t ∧
        srcOf t n = (if ok then .healthy else .retest) ∧ (∀ k, k ≠ n → srcOf t k = srcOf s k)) ∧
      (srcOf s n = .retest → vget s.rng.repeats n 0 < 2 → ∃ t, exec (.startupTestComplete n early late) s = .next t ∧
        srcOf t n = (if ok then .healthy else .retest) ∧ t.rng.retests = min 255 (s.rng.retests + 1)) ∧
      (srcOf s n = .retest → 2 ≤ vget s.rng.repeats n 0 → s.lcf.stage < 5 → ok = false →
        ∃ t, exec (.startupTestComplete n early late) s = .next t ∧ srcOf t n = .retired)) ∧
    (∀ n < 4, srcOf s n = .healthy → ∀ q : Samples,
      (rctBad (q.before ++ q.window) = true ∨ aptBad q.window = true →
        ∃ t, exec (.healthTestFailure n q) s = .next t ∧ srcOf t n = .retest ∧ t.rng.seedBuf = [] ∧ t.rng.drbg = s.rng.drbg ∧
          t.rng.rctFails = (if rctBad (q.before ++ q.window) then min 65535 (s.rng.rctFails + 1) else s.rng.rctFails) ∧
          t.rng.aptFails = (if aptBad q.window then min 65535 (s.rng.aptFails + 1) else s.rng.aptFails)) ∧
      (rctBad (q.before ++ q.window) = false → aptBad q.window = false → exec (.healthTestFailure n q) s = .next s)) ∧
    ((∀ n < 4, srcOf s n = .healthy) → s.rng.seedBuf.length < 16 → exec .seedProduced s = .next { s with
      free := s.free + 1
      rng := { s.rng with
        seedBuf := s.rng.seedBuf ++ [sha3_256 (freeBytes s.free 256)], seeds := (s.rng.seeds + 1) % 2 ^ 64 } }) ∧
    ((∃ n < 4, srcOf s n ≠ .healthy) → exec .seedProduced s = .next s) ∧
    (∀ n a b rest, nextDrbg s = some n → s.rng.seedBuf = a :: b :: rest → ∃ t, exec .drbgInstantiate s = .next t ∧
      t.rng.seedBuf = rest ∧ (drbgOf t n).state = .serving ∧ (∀ k, k ≠ n → drbgOf t k = drbgOf s k) ∧
      (n ≠ s.variant.sysUnit →
        drbgOf t n = (drbgOf s n).instantiate (leBytes 16 s.serial.toNat) n a b ∧ t = { s with rng := t.rng })) ∧
    (∀ n seed rest, n ≤ s.variant.sysUnit → (drbgOf s n).state = .serving → 65536 ≤ (drbgOf s n).reqs →
      s.rng.seedBuf = seed :: rest → s.net.hellos = [] ∨ n ≠ s.variant.sysUnit →
      ∃ t, exec (.drbgReseed n) s = .next t ∧ t.rng.seedBuf = rest ∧
        drbgOf t n = (drbgOf s n).reseed seed ∧ (drbgOf t n).reqs = 0 ∧ ∀ k, k ≠ n → drbgOf t k = drbgOf s k) ∧
    (rbit s 0x000A0004 1 = true → s.rng.data = none → SysServes s 1 → ∀ b, Draws s .data 8 b →
      ∃ t, exec .dataRegisterRefill s = .next t ∧ t.rng.data = some (BitVec.ofNat 64 (leNat b)) ∧
        (drbgOf t s.variant.sysUnit).reqs = (drbgOf s s.variant.sysUnit).reqs + 1)

/-! ### Chapters 14 and 15: ports and sessions -/

/-- R544, R545, R547, R549, R578, R579, R797, Table 14.1: a frame that fails rows 1 to 3 or rows 4 and 5 only advances its
counter; BEACON is answered up to 10,000 times a second; ARP, neighbour discovery and echo are answered on the port's own
addresses; service addresses are announced; `link_up` follows the link. -/
def Obligations.PortsAnswerAndDiscard : Prop :=
  ∀ (s : State) (p : Nat), s.pwr.mainPower = true → portPresent s p = true → NoDrill s →
    (∀ f : Frame, f.port = p → linkOk s f = false → ∃ t, exec (.discardedFrame f) s = .next t ∧
      portOf t p = { portOf s p with dropLink := min 65535 ((portOf s p).dropLink + 1) } ∧
      t = { s with net := t.net, drl := t.drl } ∧ t.net = { s.net with ports := t.net.ports }) ∧
    (∀ f : Frame, f.port = p → linkOk s f = true → headerOk f = false → ∃ t, exec (.discardedFrame f) s = .next t ∧
      portOf t p = { portOf s p with dropWsp := min 65535 ((portOf s p).dropWsp + 1) } ∧
      t = { s with net := t.net, drl := t.drl } ∧ t.net = { s.net with ports := t.net.ports }) ∧
    (∀ f : Frame, f.port = p → Handled s f → f.hdr.typ = 10 → 16 ≤ f.body.length →
      isUnit s p f.path.v6 f.link.dst = true ∨ serviceOn s p = true →
      s.pwr.pwrGoodAt + 6400000 ≤ s.mer.elapsed →
      let n := if (portOf s p).beaconSec = s.mer.elapsed / 16000000 then (portOf s p).beaconCount else 0
      (n < 10000 → ∃ t, exec (.beaconQ f) s = .next t ∧ (portOf t p).beaconCount = n + 1 ∧
        (portOf t p).beaconOk = min 65535 ((portOf s p).beaconOk + 1) ∧ t.net.sessions = s.net.sessions) ∧
      (10000 ≤ n → ∃ t, exec (.beaconQ f) s = .next t ∧ t.out = s.out ∧
        (portOf t p).beaconDrop = min 65535 ((portOf s p).beaconDrop + 1))) ∧
    (∀ l : LinkAt, l.port = p → macVlanOk s p l.mac l.vlan = true →
      (∀ a, isUnit4 s p a = true → exec (.arpRequest l a) s = .next (emit s (.arp p a l.vlan))) ∧
      (∀ a, isUnit6 s p a = true →
        exec (.neighbourSolicitation l a) s = .next (emit s (.nd p a l.vlan (ipTx s p (answerPath l) false)))) ∧
      (∀ a, isUnit4 s p a = false → isService4 s p a = false → exec (.arpRequest l a) s = .next s) ∧
      ∀ a, hptFld s p 0x004 4 1 = 1 → beaconOnly s p = false → isUnit4 s p a = true →
        exec (.icmpEcho l a false) s = .next (emit s (.echo p a l.vlan (ipTx s p (answerPath l) false)))) ∧
    (∀ (l : LinkAt) (a : Nat) (v : Bool), l.port = p → macVlanOk s p l.mac l.vlan = false → exec (.arpRequest l a) s = .next s ∧
      exec (.neighbourSolicitation l a) s = .next s ∧ exec (.icmpEcho l a v) s = .next s) ∧
    (∀ (l : LinkAt) (a : Nat) (v : Bool), l.port = p → p < 4 → s.lcf.holdWater = true → exec (.icmpEcho l a v) s = .next s) ∧
    (∀ n rest, (portOf s p).announce = n :: rest → n ≤ s.mer.elapsed → txOpen s p = true →
      ∃ t, exec (.addressAnnounce p) s = .next t ∧ t.out = s.out ++ announcements s p ∧ (portOf t p).announce = rest) ∧
    ∀ up, p < 5 → ∃ t, exec (.hostPortLinkChange p up) s = .next t ∧ portOf t p = { portOf s p with linkUp := up } ∧
      t = { s with net := { s.net with ports := t.net.ports } }

/-- R564, R565, R567 to R573, Tables 14.11 and 14.12: an accepted HELLO opens one half-open session, under an ID that no
session and no quarantine holds, with TH, S₀ and the direction keys of its handshake; a HELLO that fails a check opens none and
is counted; CONFIRM establishes the session, or ends it; a half-open session lasts 2 s; the cookie key changes with its epoch.
-/
def Obligations.HandshakeOpensSessions : Prop :=
  (∀ (s : State) (f h : Frame) (sh : List Byte), f = h.andThen sh → NoDrill s → Handled s f →
    f.port = 4 ∨ (toService s f = true ∧ serviceOn s f.port = true) → f.hdr.typ = 1 →
    portServes s f.port = true → (f.port = 4 ∨ inService s = true) → SysServes s 1 →
    s.bin.lock = false → s.bin.lockNew = false → s.rng.alarm = false →
    (∀ x ∈ halfOpens s, x.helloDigest ≠ sha3_256 f.body) →
    s.net.sessions.length + s.net.quarantine.length + 2 ≤ 2 ^ 32 →
    let refused (t : State) := t.net.sessions = s.net.sessions ∧
      (portOf t f.port).helloDrop = min 65535 ((portOf s f.port).helloDrop + 1)
    (helloLayout s f = true → hptFld s f.port 0x004 5 2 = 0 →
      (s.net.sessions.filter fun x => x.port = f.port).length < s.variant.sessions → (halfOpens s).length < 16384 →
      ∃ t, exec (.hello h sh) s = .next t ∧ (sharesOk f = false → refused t) ∧
        (sharesOk f = true → ∀ b, Draws s .ports 100 b →
          let a := acceptMessage s f (pickId s (leNat (b.take 4))) (b.drop 4)
          (vasOn s = true ∧ a.checks = false → refused t) ∧
          (vasOn s = false ∨ a.checks = true →
            ∃ x, t.net.sessions = s.net.sessions ++ [x] ∧ x.state = .halfOpen ∧
              x.port = f.port ∧ x.home = fieldAt f.body 4 2 ∧ x.alg = fieldAt f.body 6 1 ∧ x.opened = s.mer.elapsed ∧
              x.helloDigest = sha3_256 f.body ∧ (∀ y ∈ s.net.sessions, y.id ≠ x.id) ∧
              (∀ q ∈ s.net.quarantine, q.1 ≠ x.id) ∧ x.id ≠ 0 ∧ x.gen = 0 ∧ x.txSeq = 0 ∧
              x.accept = a.message ∧ x.th = a.th ∧ x.sg = a.s0 ∧ x.keys = [(0, directionKeys a.s0)]))) ∧
    (helloLayout s f = false → ∃ t, exec (.hello h sh) s = .next t ∧ refused t)) ∧
  (∀ (s : State) (f h p : Frame) (sig : List Byte) (x : Session) (g : Nat), f = h.andThen sig → ReachesSession s f x g p →
    f.hdr.typ = 3 → x.state = .halfOpen → bitOf f.hdr.flags 0 = false → f.hdr.seq = 0 →
    ∃ t, exec (.confirm h sig) s = .next t ∧ OthersStand s t x.id ∧
      (confirmCheck s x p.body ≠ none → findSess t x.id = none ∧ (x.id, s.mer.elapsed) ∈ t.net.quarantine) ∧
      (confirmCheck s x p.body = none → x.unacked = [] → Quiet x → x.anchored = false → x.peerAck ≤ f.hdr.cumAck →
        ackViolates x f.hdr = false → s.prl.joined = false → ∃ y, findSess t x.id = some y ∧ y.state = .established ∧
          y.anchored = true ∧ y.rxCum = 1 ∧ y.dom = (if x.port = 4 then 0 else x.cred.dom) ∧ y.gen = x.gen ∧
          y.keys = x.keys ∧ y.sg = x.sg)) ∧
  (∀ (s : State) (x : Session), findSess s x.id = some x → x.state = .halfOpen →
    (x.opened + 32000000 ≤ s.mer.elapsed → ∃ t, exec (.halfOpenExpiry x.id) s = .next t ∧ findSess t x.id = none ∧
      (x.id, s.mer.elapsed) ∈ t.net.quarantine ∧ OthersStand s t x.id) ∧
    (s.mer.elapsed < x.opened + 32000000 → exec (.halfOpenExpiry x.id) s = .next s)) ∧
  ∀ (s : State), (s.net.cookieEpoch = s.mer.t / 2 ^ 32 → exec .cookieEpochChange s = .next s) ∧
    (s.net.cookieEpoch + 1 = s.mer.t / 2 ^ 32 → SysServes s 1 → ∀ k, Draws s .ports 32 k →
      ∃ t, exec .cookieEpochChange s = .next t ∧ t = { s with rng := t.rng, net := t.net } ∧ t.net = { s.net with
        cookieOld := s.net.cookieKey, cookieKey := k, cookieEpoch := s.mer.t / 2 ^ 32 })

/-- R549, R555, R574 to R576, R585 to R588, R592, R604 to R608, R611, Table 15.4: the next frame in order advances the session's
acknowledgement, its window and its timers; duplicates, frames beyond the window and frames that fail verification are
counted; REKEY_ACK completes a rekey; CLOSE ends the session; RESYNC starts its sequences anew. -/
def Obligations.SessionFramesAreAccepted : Prop :=
  (∀ (s : State) (f p : Frame) (x : Session) (g : Nat), ReachesSession s f x g p →
    let took (y : Session) := y.rxCum = f.hdr.seq + 1 ∧ y.rxSet = [] ∧ y.unacked = [] ∧ y.peerAck = f.hdr.cumAck ∧
      y.peerWin = f.hdr.rwnd ∧ y.lastRx = s.mer.elapsed
    (f.hdr.typ = 5 → x.state = .established ∨ x.state = .rekeying → NextInOrder x f →
      ∃ t y, exec (.ackFrame f) s = .next t ∧ findSess t x.id = some y ∧ took y ∧ y.state = x.state ∧
        y.ackDue = x.ackDue ∧ y.txSeq = x.txSeq ∧ OthersStand s t x.id ∧ t.dsp = s.dsp) ∧
    (f.hdr.typ = 4 → x.state = .established ∨ x.state = .rekeying → NextInOrder x f → p.body = [] →
      bitOf f.hdr.flags 0 = false →
      ∃ t y, exec (.dataFrame f) s = .next t ∧ findSess t x.id = some y ∧ took y ∧ y.state = x.state ∧
        y.ackDue = some (x.ackDue.getD (s.mer.elapsed + ackDelay s x.port)) ∧ OthersStand s t x.id ∧ t.dsp = s.dsp) ∧
    (f.hdr.typ = 5 → x.state = .established → f.hdr.seq < x.rxCum → x.port < 5 →
      ∃ t, exec (.ackFrame f) s = .next t ∧ t.dsp = s.dsp ∧
        (portOf t x.port).dups = min 65535 ((portOf s x.port).dups + 1)) ∧
    (f.hdr.typ = 4 → x.state = .established → x.rxCum + x.advWin ≤ f.hdr.seq → f.hdr.seq ∉ x.rxSet → x.port < 5 →
      ∃ t, exec (.dataFrame f) s = .next t ∧ t.dsp = s.dsp ∧
        (portOf t x.port).beyond = min 65535 ((portOf s x.port).beyond + 1)) ∧
    (f.hdr.typ = 7 → x.state = .rekeying → NextInOrder x f → p.body.length = 16 → fieldAt p.body 0 4 = x.gen →
      rsvdOk p.body 4 4 = true → f.hdr.seq + 1 ≤ fieldAt p.body 8 8 →
      ∃ t y, exec (.rekeyAck f) s = .next t ∧ findSess t x.id = some y ∧ y.state = .established ∧
        y.rxSwitch = some (fieldAt p.body 8 8) ∧ y.gen = x.gen ∧ OthersStand s t x.id) ∧
    (f.hdr.typ = 8 → x.state = .established → NextInOrder x f → p.body.length = 8 → rsvdOk p.body 3 5 = true →
      ∃ t, exec (.close f) s = .next t ∧ findSess t x.id = none ∧ (x.id, s.mer.elapsed) ∈ t.net.quarantine ∧
        (∀ e ∈ t.net.retention, e.sess ≠ x.id) ∧ OthersStand s t x.id) ∧
    (∀ cause, f.hdr.typ = 9 → x.state = .established → x.resyncAt = none → x.unacked = [] → Quiet x → x.anchored = true →
      parseResync p.body = some (g, 0, cause) → x.gen < g → 0 < f.hdr.rwnd → s.prl.joined = false → s.mec.paused = false →
      ∃ t y, exec (.resync f) s = .next t ∧ findSess t x.id = some y ∧ y.gen = g ∧ y.rxCum = f.hdr.seq + 1 ∧
        y.rxSet = [] ∧ y.txSwitch = some x.txSeq ∧ y.txSeq = x.txSeq + 1 ∧ (y.unacked.map (·.typ)) = [9] ∧
        y.resyncAt = some s.mer.elapsed ∧ OthersStand s t x.id)) ∧
  ∀ (s : State) (f : Frame) (x : Session), NoDrill s → Handled s f → f.hdr.typ = 4 → findSess s f.hdr.sess = some x →
    x.port = f.port → verifies x (stamped s f) = none →
    ∃ t, exec (.dataFrame f) s = .next t ∧ t.net.sessions = s.net.sessions ∧ t.dsp = s.dsp ∧
      (portOf t f.port).aeadFail = min 0xFFFFFFFF ((portOf s f.port).aeadFail + 1)

/-- R568, R574, R576, R577, R588, R591, R593, R599, R602 to R606: the timers of a session send, close, end or forget as their
rules say, on a port that this unit serves; a CLOSE that the host's window does not admit waits. -/
def Obligations.SessionTimers : Prop :=
  ∀ (s : State) (x : Session), findSess s x.id = some x → s.pwr.mainPower = true → servesSess s x = true → NoDrill s →
    s.prl.joined = false → s.mec.paused = false →
    let now := s.mer.elapsed
    let sent (y : Session) (typ : Nat) := y.txSeq = x.txSeq + 1 ∧ (y.unacked.map (·.typ)) = x.unacked.map (·.typ) ++ [typ]
    let limit := 2 ^ 48 ≤ max x.genTx x.genRx ∨ x.genStart + 57600000000 ≤ now
    (x.state = .established → SendsNow x → Quiet x →
      (2 ^ 47 ≤ max x.genTx x.genRx ∨ x.genStart + 48000000000 ≤ now) →
      ∃ t y, exec (.rekeyTrigger x.id) s = .next t ∧ findSess t x.id = some y ∧ y.state = .rekeying ∧
        y.gen = x.gen + 1 ∧ y.oldGen = some x.gen ∧ y.sg = nextSecret x.sg (x.gen + 1) ∧
        alGet y.keys (x.gen + 1) = some (directionKeys y.sg) ∧ alGet y.keys x.gen = alGet x.keys x.gen ∧
        sent y 6 ∧ (∃ w, y.txSwitch = some w ∧ x.txSeq < w) ∧ OthersStand s t x.id) ∧
    (x.state = .established → limit → SendsNow x →
      ∃ t y, exec (.generationLimit x.id) s = .next t ∧ findSess t x.id = some y ∧ y.state = .closing ∧ sent y 8 ∧
        y.outq = [] ∧ OthersStand s t x.id) ∧
    (x.state = .established → limit → x.anchored = false ∨ x.peerAck + x.peerWin ≤ x.txSeq →
      ∃ t y, exec (.generationLimit x.id) s = .next t ∧ findSess t x.id = some y ∧ y.state = .closing ∧ y.txSeq = x.txSeq ∧
        y.closeWith = some (St.sessionExpired, 0) ∧ OthersStand s t x.id) ∧
    (∀ g n, x.oldGen = some g → x.rekeyAt = some n → n + 32000000 ≤ now →
      ∃ t y, exec (.oldKeyErase x.id) s = .next t ∧ findSess t x.id = some y ∧
        y = { x with oldGen := none, keys := x.keys.filter fun k => k.1 == x.gen }) ∧
    (∀ u, u ∈ x.unacked → (∀ v ∈ x.unacked, v.seq = u.seq → v = u) → u.rtoAt ≤ now → u.typ ≠ 5 →
      ∃ t y, exec (.rtoExpiry x.id u.seq) s = .next t ∧ findSess t x.id = some y ∧ y.rto = min 1600000 (2 * x.rto) ∧
        y.txSeq = x.txSeq ∧ OthersStand s t x.id ∧
        ((alGet x.keys u.gen).isSome = true → y.unacked =
          x.unacked.map fun v => if v = u then { u with resent := true, rtoAt := now + y.rto } else v) ∧
        (alGet x.keys u.gen = none → y.unacked = x.unacked ∧ t.out = s.out)) ∧
    (∀ n, x.state = .established → x.anchored = true → x.awaits = none → x.ackDue = some n → n ≤ now →
      x.txSeq < x.peerAck + x.peerWin + 64 →
      ∃ t y, exec (.ackDelayExpiry x.id) s = .next t ∧ findSess t x.id = some y ∧ sent y 5 ∧ y.ackDue = none) ∧
    (x.state = .established → x.anchored = true → x.awaits = none → x.lastTx + 16000000 ≤ now →
      x.txSeq < x.peerAck + x.peerWin + 64 →
      ∃ t y, exec (.keepalive x.id) s = .next t ∧ findSess t x.id = some y ∧ sent y 5 ∧ y.lastTx = now) ∧
    (x.state = .established → SendsNow x → x.lastRx + idleTicks s x.port ≤ now →
      ∃ t y, exec (.idleExpiry x.id) s = .next t ∧ findSess t x.id = some y ∧ y.state = .closing ∧ sent y 8) ∧
    (x.state = .closing → x.closeAt + 1600000 ≤ now → ∃ t, exec (.closeTimeout x.id) s = .next t ∧
      findSess t x.id = none ∧ (x.id, now) ∈ t.net.quarantine ∧ (∀ e ∈ t.net.retention, e.sess ≠ x.id) ∧
      OthersStand s t x.id) ∧
    (∀ id, ∃ t, exec (.quarantineExpiry id) s = .next t ∧
      ∀ q, q ∈ t.net.quarantine ↔ q ∈ s.net.quarantine ∧ ¬(q.1 = id ∧ q.2 + 960000000 ≤ now)) ∧
    ∀ r e n, findRet s x.id r = some e → e.reply.isSome = true → e.acked = true → e.sentAt = some n →
      n + retainTicks s x.port ≤ now → ∃ t, exec (.retentionRemoval x.id r) s = .next t ∧ findRet t x.id r = none ∧
        t.net.sessions = s.net.sessions

/-! ### Chapters 20 and 09: management messages and ceremonies -/

/-- R748, R749, R754 to R759, Table 20.12, Table 19.5: a REG message reads and writes registers and answers one result per
operation; records are committed and their answer waits for the commit; uploads proceed in order; diagnostics, restart,
closing a session and the owner key digest; the dual-signed challenge is issued and answered; what Hold-Water does not allow is
turned away, and a payload that breaks its layout is refused, with nothing changed. -/
def Obligations.ManagementMessages : Prop :=
  ∀ (s : State) (m : Mgmt) (x : Session), Asked s m x → NoDrill s →
    let hold := s.lcf.holdWater
    let regMsg (op addr v : Nat) := leBytes 1 op ++ zeros 3 ++ leBytes 4 addr ++ leBytes 4 v
    (blockEn s 0 0 = true →
      (∀ b, parseReg b = none → ∃ t, exec (.reg m b) s = .next t ∧ Answers s t m x St.badFormat [] ∧ t.regs = s.regs) ∧
      (∀ addr, addr % 4 = 0 → addr ≤ 0x15FFFF → addr ≠ 0x000A002C → addr ≠ 0x000A0030 →
        apuRefuses s (iniAccess .cox false) addr 4 = none →
        ∃ t, exec (.reg m (regMsg 1 addr 0)) s = .next t ∧ t.regs = s.regs ∧
          Answers s t m x 0 (zeros 4 ++ leBytes 4 (readReg s addr).1.toNat)) ∧
      (∀ addr r (v : BitVec 32), hold = false → addr % 4 = 0 → addr ≤ 0x15FFFF → regClosed addr = false →
        PlainRegister s addr r → apuRefuses s (iniAccess .cox true) addr 4 = none →
        ∃ t, exec (.reg m (regMsg 2 addr v.toNat)) s = .next t ∧ Answers s t m x 0 (zeros 8) ∧
          ∀ f ∈ r.fields, ∀ b, f.lo ≤ b → b ≤ f.hi → (stored t addr).getLsbD b =
            writtenBit f (stored s addr) v (gated s addr) (s.locked.contains (addr, f.lo)) b) ∧
      (∀ addr (v : BitVec 32), addr % 4 ≠ 0 → addr < 2 ^ 32 → ∃ t, exec (.reg m (regMsg 2 addr v.toNat)) s = .next t ∧
        Answers s t m x 0 (leBytes 2 St.accessFault ++ zeros 6) ∧ t.regs = s.regs)) ∧
    (hold = false → serves s = true →
      (∃ t, exec (.commitRecords m []) s = .next t ∧ Answers s t m x St.badFormat [] ∧ t.ksc = s.ksc) ∧
      ∀ b r, 16 ≤ b.length → b.length ≤ 1024 → fieldAt b 2 2 = b.length → parseJput b = some r → kscOn s = true →
        (checkRecord s (cfgV s) r = 0 → quorumOk s r = true → authorising s r = none → s.prl.state ≠ .divergent →
          s.ksc.readOnly = false → conflicts s s.ksc.v [.conf r] = false → sumsFit s [.conf r] = true → s.ksc.v ≤ lastCsn s →
          (∀ h ∈ s.net.held, s.ksc.v < h.csn) →
          ∃ t, exec (.commitRecords m b) s = .next t ∧
            t.ksc = { committed s (.conf r) with loading := (fixLoads s (cfgV s) [.conf r]).ksc.loading } ∧
            t.net.held = s.net.held ++ [{ csn := lastCsn s + 1, sess := m.sess, reply :=
              { reqId := m.reqId, status := 0, csn := lastCsn s + 1 } }] ∧ findSess t m.sess = some x) ∧
        (checkRecord s (cfgV s) r ≠ 0 → (∀ d i v dig, r ≠ .imageLoad d i v dig) →
          ∃ t, exec (.commitRecords m b) s = .next t ∧ Answers s t m x (checkRecord s (cfgV s) r) [] ∧ t.ksc = s.ksc)) ∧
    (∀ b b1 b2 b3 b4 b5 b6, b = b1 ++ b2 ++ b3 ++ b4 ++ b5 ++ b6 → hold = false →
      let key := (fieldAt b 0 2, fieldAt b 4 4, fieldAt b 8 4)
      let off := fieldAt b 16 8
      let have_ := if off = 0 then [] else (alGet s.ksc.staging key).getD []
      let all := have_ ++ b.drop 24
      let good := 24 < b.length ∧ b.length ≤ 8192 ∧ key.1 ≤ 4096 ∧ rsvdOk b 2 2 = true ∧ rsvdOk b 12 3 = true ∧
        fieldAt b 15 1 ≤ 1
      (good → off = have_.length →
        ∃ t, exec (.imageUploadPart m b1 b2 b3 b4 b5 b6) s = .next t ∧ Answers s t m x 0 (leBytes 8 all.length) ∧
          (fieldAt b 15 1 = 0 → t.ksc = { s.ksc with staging := alSet s.ksc.staging key all, images := t.ksc.images }) ∧
          (fieldAt b 15 1 = 1 → t.ksc = { s.ksc with
            staging := alDel s.ksc.staging key, staged := alSet s.ksc.staged key all, images := t.ksc.images }) ∧
          (alGet (cfgV s).images key = none → t.ksc.images = s.ksc.images ∧ t.pcache = s.pcache)) ∧
      (good → off ≠ have_.length → ∃ t, exec (.imageUploadPart m b1 b2 b3 b4 b5 b6) s = .next t ∧ t.ksc = s.ksc ∧
        Answers s t m x St.notAuthorised []) ∧
      (¬good → ∃ t, exec (.imageUploadPart m b1 b2 b3 b4 b5 b6) s = .next t ∧ t.ksc = s.ksc ∧
        Answers s t m x St.badFormat [])) ∧
    (∀ b b1 b2 b3, b = b1 ++ b2 ++ b3 → 16 < b.length → b.length ≤ 8192 → rsvdOk b 0 7 = true → fieldAt b 7 1 ≤ 1 →
      let off := fieldAt b 8 8
      let have_ := if off = 0 then [] else s.lcf.fwStage
      let all := have_ ++ b.drop 16
      (off = have_.length → ∃ t, exec (.firmwareUploadPart m b1 b2 b3) s = .next t ∧ Answers s t m x 0 (leBytes 8 all.length) ∧
        (if s.lcf.slotB then t.lcf.slotBFw = s.lcf.slotBFw else t.lcf.slotAFw = s.lcf.slotAFw) ∧
        (fieldAt b 7 1 = 0 → t.lcf.fwStage = all ∧ (if s.lcf.slotB then t.lcf.slotAFw else t.lcf.slotBFw) = {}) ∧
        (fieldAt b 7 1 = 1 → t.lcf.fwStage = [] ∧
          (if s.lcf.slotB then t.lcf.slotAFw else t.lcf.slotBFw) = firmwareOf all)) ∧
      (off ≠ have_.length → ∃ t, exec (.firmwareUploadPart m b1 b2 b3) s = .next t ∧ t.lcf = s.lcf ∧
        Answers s t m x St.notAuthorised [])) ∧
    (hold = true → 3 ≤ s.lcf.stage → ∀ r : SelfTest, ∀ pass,
      (∃ t, exec (.rerunSelfTest ⟨m, leBytes 1 2 ++ zeros 7⟩ r) s = .next t ∧ Answers s t m x 0 [] ∧
        ∀ e < s.variant.symEngines, (engineOf t .cipher e).online =
          if (engineOf s .cipher e).katFail then (engineOf s .cipher e).online else !r.badCipher.contains e) ∧
      (∃ t, exec (.dramPatternTest ⟨m, leBytes 1 3 ++ zeros 7⟩ pass) s = .next t ∧ Answers s t m x 0 [] ∧
        t = { s with net := t.net, log := t.log }) ∧
      ∃ t, exec (.nandReadScan ⟨m, leBytes 1 4 ++ zeros 7⟩ pass) s = .next t ∧ Answers s t m x 0 [] ∧
        t = { s with net := t.net, log := t.log }) ∧
    (∃ t, exec (.restart ⟨m, leBytes 1 1 ++ zeros 7⟩) s = .next t ∧ t.lcf.stage = 0 ∧ t.lcf.holdWater = false ∧
      t.pwr.starting = true ∧ t.net.sessions = [] ∧ (∀ c, (t.core c).item = none) ∧ t.ksc.commits = s.ksc.commits) ∧
    (∀ b, b = [] ∨ fieldAt b 0 1 = 0 ∨ 4 < fieldAt b 0 1 ∨ (fieldAt b 0 1 = 1 ∧ b.length ≠ 8) →
      ∃ t, exec (.restart ⟨m, b⟩) s = .next t ∧ t.lcf = s.lcf ∧ Answers s t m x St.badFormat []) ∧
    (hold = false →
      (∀ y, findSess s y.id = some y → y.id < 2 ^ 32 → y.id ≠ m.sess → y.state = .established →
        ∃ t z, exec (.closeSession m (leBytes 4 y.id ++ zeros 4)) s = .next t ∧ findSess t y.id = some z ∧
          z.state = .closing ∧ Answers s t m x 0 []) ∧
      ∀ id, id < 2 ^ 32 → findSess s id = none → ∃ t, exec (.closeSession m (leBytes 4 id ++ zeros 4)) s = .next t ∧
        Answers s t m x St.paramInvalid []) ∧
    (∀ d, hold = false → lcState s = .provisioning → d.length = 32 →
      (s.lcf.owner = none → ∃ t, exec (.ownerKeyDigest m d) s = .next t ∧ t.lcf = { s.lcf with owner := some d } ∧
        Answers s t m x 0 []) ∧
      (s.lcf.owner ≠ none → ∃ t, exec (.ownerKeyDigest m d) s = .next t ∧ t.lcf = s.lcf ∧
        Answers s t m x St.notAuthorised [])) ∧
    (∀ p g, p < 256 → g < 256 →
      let op := leBytes 1 1 ++ leBytes 1 p
      let to_ := leBytes 1 g ++ zeros 5
      (challengeOk s p g = true → SysServes s 1 → ∀ nonce, Draws s .unit 32 nonce →
        let n := (s.lcf.chalCnt + 1) % 2 ^ 32
        let c := leBytes 16 s.serial.toNat ++ leBytes 1 p ++ leBytes 1 g ++ zeros 2 ++ leBytes 4 s.bin.cycles ++ leBytes 4 n
          ++ nonce
        ∃ t, exec (.challengeIssue m op to_) s = .next t ∧ Answers s t m x 0 c ∧
          t.lcf = { s.lcf with chalCnt := n, challenge := some c, thapraOk := false, ownerOk := false }) ∧
      (challengeOk s p g = false → ∃ t, exec (.challengeIssue m op to_) s = .next t ∧ t.lcf = s.lcf ∧
        Answers s t m x St.notAuthorised [])) ∧
    (∀ c b b1 b2, b = b1 ++ b2 → s.lcf.challenge = some c → responseLayout b = true →
      let purpose := fieldAt c 16 1
      let target := fieldAt c 17 1
      let sig := slice b 1 2 == slice c 16 2 && mldsaVerifies 0x2A (slice b 8 2592) (ascii "WX-DUAL") c (slice b 2600 4627)
      let refused (t : State) := t.lcf = s.lcf ∧ t.dbg = { s.dbg with refused := min 65535 (s.dbg.refused + 1) } ∧
        Answers s t m x 0 (leBytes 4 3)
      let debug (t : State) := t.lcf.challenge = none ∧ t.dbg.level = target ∧ Answers s t m x 0 (leBytes 4 2)
      (fieldAt b 0 1 = 2 →
        let ok := sha3_256 (slice b 8 2592) == Config.thapraServiceDigest && sig
        ∃ t, exec (.thapraResponse m b1 b2) s = .next t ∧ (ok = false → refused t) ∧
          (ok = true → s.lcf.ownerOk = false → purpose ≠ 1 ∨ target ≠ 3 →
            t.lcf = { s.lcf with thapraOk := true } ∧ t.dbg = s.dbg ∧ Answers s t m x 0 (leBytes 4 1)) ∧
          (ok = true → s.lcf.ownerOk = true → purpose = 2 → target = 1 → debug t) ∧
          (ok = true → purpose = 1 → target = 3 → hold = true → mayTransit s = true →
            t.lcf.running = true ∧ Answers s t m x 0 (leBytes 4 2) ∧
            t.lcf.progress = s.lcf.progress ++ [{ code := 4, marks := 0, token := 0 }])) ∧
      (fieldAt b 0 1 = 3 →
        let ok := s.lcf.owner == some (sha3_256 (slice b 8 2592)) && sig
        ∃ t, exec (.ownerResponse m b1 b2) s = .next t ∧ (ok = false → refused t) ∧
          (ok = true → s.lcf.thapraOk = false → t.lcf = { s.lcf with ownerOk := true } ∧ t.dbg = s.dbg ∧
            Answers s t m x 0 (leBytes 4 1)) ∧
          (ok = true → s.lcf.thapraOk = true → purpose = 2 → target = 1 → debug t) ∧
          (ok = true → s.lcf.thapraOk = true → purpose = 1 → target = 5 → hold = true → mayTransit s = true →
            t.lcf.running = true ∧ Answers s t m x 0 (leBytes 4 2) ∧
            t.lcf.progress = s.lcf.progress ++ [{ code := 6, marks := 0, token := 0 }]))) ∧
    (hold = true → ∀ b b1 b2 b3 b4 b5, ∀ c ∈ [Instr.ceremonyInputPart m b b1 b2 b3 b4, .ceremonyOutputPart m b b1 b2,
        .commitRecords m b, .imageUploadPart m b b1 b2 b3 b4 b5, .closeSession m b, .ownerKeyDigest m b],
      ∃ t, exec c s = .next t ∧ Answers s t m x St.holdWater [] ∧ t.ksc = s.ksc ∧ t.qrm = s.qrm ∧ t.lcf = s.lcf) ∧
    (sysReady s = true → exec (.drbgWaitTimeout (.ceremony m)) s = .next s) ∧
    (∀ n, (m, n) ∈ s.qrm.opens → n + 1600 ≤ s.mer.elapsed → sysReady s = false →
      ∃ t, exec (.drbgWaitTimeout (.ceremony m)) s = .next t ∧ Answers s t m x St.rngUnavailable [] ∧
        ∀ w ∈ t.qrm.opens, w.1 ≠ m) ∧
    ((∀ w ∈ s.qrm.opens, w.1 = m → s.mer.elapsed < w.2 + 1600) → exec (.drbgWaitTimeout (.ceremony m)) s = .next s) ∧
    ∀ c k rest, (s.core c).pendK = k :: rest → k.creates = true → k.status = 0 → sysReady s = false →
      (k.asked + 1600 ≤ s.mer.elapsed →
        ∃ t, exec (.drbgWaitTimeout (.ksc c)) s = .next t ∧ (∀ e, e ≠ c → t.core e = s.core e) ∧
          t.core c = { s.core c with
            pendK := { k with wait := .ready, status := St.rngUnavailable, handle := none } :: rest }) ∧
      (s.mer.elapsed < k.asked + 1600 → exec (.drbgWaitTimeout (.ksc c)) s = .next s)

/-- R413 to R421, R424, R757, R779, Tables 9.5a, 9.5b and 20.12: a ceremony opens under the next number and cancels the open
one of its class and scope; an approval that passes its checks is counted once per slot; k approvals complete it, and a drill
ceremony then permits its injectors; a failed approval is not counted and adds to the failures; parts of its input follow each
other; its output is read; it lapses at its closing time. -/
def Obligations.CeremoniesOpenAndComplete : Prop :=
  (∀ (s : State) (m : Mgmt) (x : Session), Asked s m x → qrmOn s = true →
    (∀ cls scope body, s.lcf.holdWater = false ∨ holdAllows s cls body = true → cls < 256 → scope ≤ 4096 →
      body.length < 2 ^ 32 → bodyForm cls body = true →
      let open_ := Instr.ceremonyOpen m (leBytes 1 cls ++ zeros 1) (leBytes 2 scope ++ zeros 4)
        (leBytes 4 body.length ++ zeros 4) body
      (scopeHas s scope cls = true → bodyOk s scope cls body = true →
        (cls = 9 → prOp body = 2 → roleOf s = .active ∨ roleOf s = .single) →
        (SysServes s 2 → ∃ t c u nonce, exec open_ s = .next t ∧ sysDraw s .qrm 32 = some (nonce, u) ∧ c.nonce = nonce ∧
          t.qrm.cers = s.qrm.cers.map (fun y => if y.scope = scope ∧ y.cls = cls ∧ y.state = .open then
            { y with state := .cancelled, components := [], dk := [], reservedBy := none } else y) ++ [c] ∧
          c.number = s.qrm.nextNum ∧ t.qrm.nextNum = (s.qrm.nextNum + 1) % 2 ^ 32 ∧ c.cls = cls ∧ c.scope = scope ∧
          c.close = s.mer.t + windowTicks s ∧ c.k = (ruleOf s scope cls body).1 ∧ c.slots = [] ∧
          c.state = (if completesAtOpen s scope cls then .complete else .open) ∧
          (cls ≠ 4 ∨ (keKind body ≠ 1 ∧ keKind body ≠ 5) → c.body = body ∧ c.dk = []) ∧
          (cls = 4 → keKind body = 1 → Draws u .ksc 64 c.dk ∧
            c.body = fillBody body 64 (sha3_256 (derivePublic 0x21 c.dk 1184))) ∧
          ∃ b, Answers s t m x 0 b ∧
            b.take 48 = leBytes 4 c.number ++ leBytes 4 (cerWord c) ++ leBytes 8 c.close ++ cerDigest c) ∧
        (sysReady s = false → ∃ t n, exec open_ s = .next t ∧ (m, n) ∈ t.qrm.opens ∧ t.qrm.cers = s.qrm.cers ∧
          t.net = s.net)) ∧
      ((scopeHas s scope cls && bodyOk s scope cls body) = false →
        ∃ t, exec open_ s = .next t ∧ t.qrm = s.qrm ∧ Answers s t m x St.paramInvalid [])) ∧
    (∀ b1 b2 b3 b4, parseOpen (b1 ++ b2 ++ b3 ++ b4) = none →
      ∃ t, exec (.ceremonyOpen m b1 b2 b3 b4) s = .next t ∧ t.qrm = s.qrm ∧ Answers s t m x St.badFormat []) ∧
    (∀ (p : List Byte) (o : Option PairOffer),
      ((∀ y ∈ s.qrm.cers, y.number = fieldAt p 0 4 → y.state ≠ .open) → ∃ t b, exec (.approval m p o) s = .next t ∧
        t.qrm = s.qrm ∧ Answers s t m x St.quorumRequired b) ∧
      ∀ c, TheCeremony s (fieldAt p 0 4) c → c.state = .open →
        (parseSubmission c p = none → ∃ t b, exec (.approval m p o) s = .next t ∧ t.qrm = s.qrm ∧
          Answers s t m x St.badFormat b) ∧
        ∀ a, parseSubmission c p = some a → c.cls ≠ 4 → c.cls ≠ 5 →
          let check := submissionCheck s c a
          let more := { c with slots := c.slots ++ [a.slot] }
          ∃ t, exec (.approval m p o) s = .next t ∧
            (check = 0 → a.slot ∈ c.slots → ∃ b, t.qrm = s.qrm ∧ Answers s t m x 0 b) ∧
            (check = 0 → a.slot ∉ c.slots → c.slots.length + 1 < c.k → ∃ b, CeremonyBecame s t c.number more ∧
              Answers s t m x 0 b ∧ b.take 8 = leBytes 4 c.number ++ leBytes 4 (cerWord more)) ∧
            (check = 0 → a.slot ∉ c.slots → c.k ≤ c.slots.length + 1 → c.cls = 3 ∨ c.cls = 10 → ∃ b,
              CeremonyBecame s t c.number { more with state := .complete } ∧ Answers s t m x 0 b) ∧
            (check = 0 → a.slot ∉ c.slots → c.k ≤ c.slots.length + 1 → c.cls = 7 → ∃ b,
              CeremonyBecame s t c.number { more with
                state := .carriedOut, status := 0, components := [], dk := [], reservedBy := none
                doneAt := some s.mer.elapsed } ∧ Answers s t m x 0 b ∧
              ∀ i < 5, injOf t i = if bitOf (fieldAt c.body 0 1) i then
                { injOf s i with permit := some (s.mer.t + fieldAt c.body 8 4 * 16000000) } else injOf s i) ∧
            (check ≠ 0 → effective s 27 ≤ 1 → ∃ b, t.qrm.cers = s.qrm.cers ∧ Answers s t m x check b ∧
              (check = St.notAuthorised ∨ check = St.authFail → t.qrm.total = min 65535 (s.qrm.total + 1)))) ∧
    (∀ p b1 b2 b3 b4 b5 c, p = b1 ++ b2 ++ b3 ++ b4 ++ b5 → s.lcf.holdWater = false →
      TheCeremony s (fieldAt p 0 4) c → takesInput s c = true → 16 < p.length → p.length ≤ 8192 → rsvdOk p 4 3 = true →
        fieldAt p 7 1 = 0 ∨ (fieldAt p 7 1 = 1 ∧ c.state = .open) →
      let off := fieldAt p 8 8
      let all := c.input ++ p.drop 16
      (off = c.input.length → ∃ t, exec (.ceremonyInputPart m b1 b2 b3 b4 b5) s = .next t ∧
        CeremonyBecame s t (fieldAt p 0 4) { c with input := all, inputDone := decide (fieldAt p 7 1 = 1) } ∧
        Answers s t m x 0 (leBytes 4 (fieldAt p 0 4) ++ leBytes 4 (cerWord c) ++ leBytes 8 all.length)) ∧
      (off ≠ c.input.length → ∃ t, exec (.ceremonyInputPart m b1 b2 b3 b4 b5) s = .next t ∧ t.qrm = s.qrm ∧
        Answers s t m x St.notAuthorised [])) ∧
    (∀ p b1 b2 b3 c, p = b1 ++ b2 ++ b3 → s.lcf.holdWater = false → TheCeremony s (fieldAt p 0 4) c → p.length = 24 →
      rsvdOk p 4 4 = true →
      rsvdOk p 20 4 = true → 0 < fieldAt p 16 4 → fieldAt p 16 4 ≤ 8192 →
      ∃ t, exec (.ceremonyOutputPart m b1 b2 b3) s = .next t ∧ t.qrm = s.qrm ∧
        Answers s t m x 0 ((c.output.drop (fieldAt p 8 8)).take (fieldAt p 16 4))) ∧
    ∀ p b1 b2, p = b1 ++ b2 → p.length = 8 → fieldAt p 0 2 ≤ 4096 → rsvdOk p 3 5 = true →
      (latestCer s (fieldAt p 0 2) (fieldAt p 2 1) = none → ∃ t, exec (.ceremonyStatus m b1 b2) s = .next t ∧ t.qrm = s.qrm ∧
        Answers s t m x 0 (zeros 16)) ∧
      ∀ c, latestCer s (fieldAt p 0 2) (fieldAt p 2 1) = some c → ∃ t, exec (.ceremonyStatus m b1 b2) s = .next t ∧
        t.qrm = s.qrm ∧ Answers s t m x 0 (leBytes 4 c.number ++ leBytes 4 (cerWord c) ++ leBytes 8 c.close)) ∧
  ∀ (s : State) (n : Nat) (c : Ceremony), TheCeremony s n c →
    (s.mer.t < c.close → exec (.ceremonyLapse n) s = .next s) ∧
    (c.close ≤ s.mer.t → c.state = .open ∨ (c.state = .complete ∧ c.reservedBy = none) →
      ∃ t, exec (.ceremonyLapse n) s = .next t ∧ t = { s with qrm := t.qrm } ∧
        CeremonyBecame s t n { c with state := .lapsed, components := [], dk := [], reservedBy := none, output := [] }) ∧
    (∀ d, c.close ≤ s.mer.t → c.state = .carriedOut → c.doneAt = some d → d + 4800000000 ≤ s.mer.elapsed →
      ∃ t, exec (.ceremonyLapse n) s = .next t ∧ t = { s with qrm := t.qrm } ∧
        CeremonyBecame s t n { c with output := [] })

/-! ### Chapter 16: the pair -/

/-- R571, R600, R606, R627, R633 to R636, R638, R639, R641, R644 to R646, R650, R651, Tables 16.5, 16.6 and 16.8: what each
message of the Pair Link Protocol changes once it is accepted; a frame that fails its check sequence, its tag or its epoch is
counted and has no other effect, and one out of sequence has none; commits wait while the key store's `en` is 0. Where the
tables leave the content of a message open, it is the model's choice (logs 23, 29, 35, 36, 61 and 117). -/
def Obligations.PairMessagesAreTaken : Prop :=
  (∀ (s : State) (p : Plp), Hears s p →
    (∀ x, (roleOf s = .active → ∃ t, exec (.heartbeat p x) s = .next t ∧
        t = { s with prl := { heard s with peerV := x.v, peerDur := x.durable } }) ∧
      (roleOf s = .standby → ∃ t, exec (.heartbeat p x) s = .next t ∧ t.mer.t = s.mer.t ∧
        t.mer.offset = ((x.time : Int) - s.mer.t) * 125 ∧ t.prl = { heard s with
          peerV := x.v, peerDur := x.durable, peerTime := x.time, peerUnc := x.unc, peerServo := x.servo
          peerSlew := x.slew })) ∧
    (∀ c, roleOf s = .standby ∨ roleOf s = .joining →
      let d := chainDigest (lastDigest s) (lastCsn s + 1) c.recs
      let k := { journalled s c with loading := (fixLoads s (cfgAt s (lastCsn s)) c.recs).ksc.loading }
      kscOn s = true →
      (c.csn = lastCsn s + 1 → c.digest = d → c.requester = none → ∃ t, exec (.commit p c d) s = .next t ∧
        t = { s with prl := heard s, ksc := k }) ∧
      (∀ r, c.csn = lastCsn s + 1 → c.digest = d → c.requester = some r → ∃ t e, exec (.commit p c d) s = .next t ∧
        t.ksc = k ∧ e ∈ t.net.retention ∧ e.sess = r.sess ∧
        e.reqId = r.reqId ∧ e.digest = r.digest ∧ e.reply = none ∧ e.orphan = some (c.csn, c.single)) ∧
      (∀ w, c.csn ≠ lastCsn s + 1 ∨ w ≠ d → exec (.commit p c w) s = .next { s with prl := heard s })) ∧
    (∀ n, (roleOf s = .active → s.prl.peerJoining = false →
        exec (.commitAck p n) s = .next { s with prl := { heard s with peerDur := n } }) ∧
      (roleOf s = .single → s.prl.peerJoining = true → s.prl.failover = false → blockEn s 12 0 = true → n = s.ksc.v →
        s.net.held = [] →
        ∃ t, exec (.commitAck p n) s = .next t ∧ roleOf t = .active ∧ t.prl.joined = true ∧ t.prl.solo = false ∧
          t.prl.epoch = s.prl.epoch + 1 ∧ t.prl.rxSeq = 0 ∧ t.prl.peerJoining = false ∧
          t.prl.txSeq = (s.net.sessions.filter fun x => !x.foreign && x.live).length)) ∧
    (∀ a, roleOf s = .standby → ∃ t x, exec (.anchor p a) s = .next t ∧
      t.net.sessions = s.net.sessions.filter (fun y => y.id != a.sess) ++ [x] ∧ x.id = a.sess ∧ x.port = a.port ∧
      x.dom = a.dom ∧ x.home = a.home ∧ x.gen = a.gen ∧ x.keys = [(a.gen, a.keys)] ∧ x.sg = a.sg ∧
        x.rxSwitch = some a.rxSwitch ∧
      x.txSwitch = some a.txSwitch ∧ x.state = .established ∧ t.ksc = s.ksc) ∧
    (∀ r y, roleOf s = .standby →
      (∀ m : ReplyMsg, y = some m → ∃ t e, exec (.retain p r y false) s = .next t ∧ findRet t r.sess r.reqId = some e ∧
        e.digest = r.digest ∧ e.reply = some { reqId := r.reqId, status := m.status, rflags := m.rflags, csn := m.csn, payload := m.payload } ∧
        e.acked = false) ∧
      ∃ t, exec (.retain p r y true) s = .next t ∧ findRet t r.sess r.reqId = none) ∧
    (∀ id start, roleOf s = .standby → ∃ t, exec (.quarantine p id start) s = .next t ∧ findSess t id = none ∧
      (id, s.mer.elapsed - (s.mer.t - start)) ∈ t.net.quarantine ∧ (∀ e ∈ t.net.retention, e.sess ≠ id) ∧
      OthersStand s t id) ∧
    (∀ m : Sample, roleOf s = .standby → exec (.compare p m.sess m.reqId m.snap m.digest m.toSampled) s = .next { s with
      prl := { heard s with samples := s.prl.samples ++ [m] } }) ∧
    (∀ e r, let rest := s.prl.samples.filter fun x => !isReq x e r
      let n := min 0xFFFFFFFF (s.prl.compared + 1)
      let bad := min 65535 (s.prl.mismatches + 1)
      (∀ m, s.prl.samples.find? (isReq · e r) = some m →
        exec (.compareResult p e r true) s = .next { s with prl := { heard s with samples := rest, compared := n } } ∧
        (s.prl.arbitrations.length < 8 → exec (.compareResult p e r false) s = .next { s with prl := { heard s with
          samples := rest, compared := n, mismatches := bad
          arbitrations := s.prl.arbitrations ++ [{ sample := m, own := m.digest }] } }) ∧
        (8 ≤ s.prl.arbitrations.length → s.prl.state ≠ .divergent → effective s 24 = 0 →
          ∃ t, exec (.compareResult p e r false) s = .next t ∧ t.prl.state = .divergent ∧ t.prl.samples = rest ∧
            t.prl.arbitrations = s.prl.arbitrations ∧ t.prl.compared = n ∧ t.prl.mismatches = bad)) ∧
      (s.prl.samples.find? (isReq · e r) = none → ∀ b,
        exec (.compareResult p e r b) s = .next { s with prl := heard s })) ∧
    (∀ (e i : Nat) (w : List Byte) (same cores engines : Bool) (r : ArbMsg) (a : Arb),
      r = { sess := e, reqId := i, digest := w, same := same, pass := cores && engines } →
        s.prl.arbitrations.find? (fun a => isReq a.sample r.sess r.reqId) = some a →
      let change (f : Arb → Arb) := s.prl.arbitrations.map fun y => if isReq y.sample r.sess r.reqId then f y else y
      let closed := s.prl.arbitrations.filter fun y => !isReq y.sample r.sess r.reqId
      (a.rerun = none → exec (.arbitrate p e i w same cores engines) s = .next { s with prl := { heard s with
        arbitrations := change fun y => { y with peer := some r } } }) ∧
      ∀ d, a.rerun = some d →
        let own := a.tests && d == a.own
        let peer := r.pass && r.same
        (own = false → ∃ t, exec (.arbitrate p e i w same cores engines) s = .next t ∧ t.lcf.holdWater = true ∧
          t.lcf.failure = 0x0803 ∧
          t.prl.retired = true) ∧
        (own = true → peer = false ∨ d = r.digest → ∃ t, exec (.arbitrate p e i w same cores engines) s = .next t ∧
          t.prl = { heard s with arbitrations := closed } ∧ t = { s with prl := t.prl, log := t.log }) ∧
        (own = true → peer = true → d ≠ r.digest → a.rounds < 2 →
          exec (.arbitrate p e i w same cores engines) s = .next { s with
          prl := { heard s with
            arbitrations := change fun y => { y with rounds := y.rounds + 1, rerun := none, peer := none } } }) ∧
        (own = true → peer = true → d ≠ r.digest → 2 ≤ a.rounds → effective s 24 = 0 →
          ∃ t, exec (.arbitrate p e i w same cores engines) s = .next t ∧ t.prl.state = .divergent ∧ roleOf t = roleOf s ∧
            t.prl.arbitrations = closed)) ∧
    (∀ l, l ≠ [] → s.prl.state ≠ .divergent → effective s 24 = 0 → ∃ t, exec (.diverge p l false) s = .next t ∧
      t.prl = { heard s with divList := l, divAll := false, role := s.prl.state, state := .divergent }) ∧
    (∀ top below, let l := top :: below
      (roleOf s = .single → blockEn s 12 0 = true → let c := agreeCsn s l
        ∃ t, exec (.join p top below) s = .next t ∧ t.prl.peerJoining = true ∧ t.ksc = s.ksc ∧
          t.prl.unacked.head? = some (s.prl.txSeq, 10, [c]) ∧
          (s.ksc.baseCsn ≤ c → t.prl.unacked.length = 1 + (s.ksc.commits.filter fun m => decide (c < m.csn)).length)) ∧
      (roleOf s = .joining → let c := l.foldl (fun n d => max n d.1) 0
        ∃ t, exec (.join p top below) s = .next t ∧ t.ksc.commits = s.ksc.commits.filter fun m => decide (m.csn ≤ c))) ∧
    (∀ (c : Commit) (dir : Directory), roleOf s = .joining → kscOn s = true →
      let d := chainDigest (lastDigest s) (lastCsn s + 1) c.recs
      (c.csn = lastCsn s + 1 → c.digest = d → exec (.catchup p [c] none) s = .next { s with
        prl := heard s
        ksc := { journalled s c with loading := (fixLoads s (cfgAt s (lastCsn s)) c.recs).ksc.loading } }) ∧
      (c.csn ≠ lastCsn s + 1 ∨ c.digest ≠ d → exec (.catchup p [c] none) s = .next { s with prl := heard s }) ∧
      ∃ t, exec (.catchup p [c] (some dir)) s = .next t ∧ t.ksc.commits = [] ∧ t.ksc.v = c.csn ∧ t.ksc.durable = c.csn ∧
        t.ksc.die0 = c.csn ∧ t.ksc.die1 = c.csn ∧ t.ksc.baseCsn = c.csn ∧ t.ksc.digest0 = c.digest ∧
        t.ksc.base = copiedCfg [c] dir ∧ t.ksc.base.gens = dir) ∧
    (∀ n, roleOf s = .standby → exec (.handback p n) s = .next { s with prl := { heard s with handbackAt := some n } }) ∧
    (∀ h : HandItem, roleOf s = .standby →
      (h.delay = none → ∃ t, exec (.handover p [h]) s = .next t ∧
        t.dsp.work = s.dsp.work ++ [{ item := handedItem s h }] ∧ t.dsp.delay = s.dsp.delay) ∧
      ∀ due q, h.delay = some (due, q) → ∃ t, exec (.handover p [h]) s = .next t ∧ t.dsp.work = s.dsp.work ∧
        t.dsp.delay = s.dsp.delay ++
          [{ item := handedItem s h, due := due, seq := q, coarse := decide (s.mer.t + 2 ^ 24 ≤ due) }]) ∧
    (roleOf s = .standby → s.prl.pendingRenounce = false →
      (s.prl.aliveIn = true → exec (.yield_ p) s = .next { s with prl := { heard s with peerYield := true } }) ∧
      (s.prl.aliveIn = false → ∃ t, exec (.yield_ p) s = .next t ∧ roleOf t = .single ∧ t.prl.failover = true ∧
        t.prl.pendingSolo = true ∧ t.prl.joined = false))) ∧
  ∀ (s : State) (p : Plp), NoDrill s → s.prl.paired = true → s.pwr.mainPower = true → s.prl.epochKnown = true →
    roleOf s ≠ .joining → ∀ x m n a r y rm id st k d l al jt jl cs fu h i w v b1 b2 b3,
    ∀ c ∈ [Instr.heartbeat p x, .commit p m w, .commitAck p n, .anchor p a, .retain p r y rm, .quarantine p id st,
      .compare p id n i w k, .compareResult p id n d, .arbitrate p id n v b1 b2 b3, .diverge p l al, .join p jt jl,
      .catchup p cs fu, .handback p n, .handover p h, .yield_ p],
    let commits := c = .commit p m w ∨ c = .catchup p cs fu
    (commits → kscOn s = false → exec c s = .next s) ∧
    (kscOn s = true ∨ ¬commits →
      (p.crcOk = false → exec c s = .next { s with prl := { s.prl with crcFail := min 65535 (s.prl.crcFail + 1) } }) ∧
      (p.crcOk = true → p.tagOk = false →
        exec c s = .next { s with prl := { s.prl with tagFail := min 65535 (s.prl.tagFail + 1) } }) ∧
      (p.crcOk = true → p.tagOk = true → p.rsvd ≠ 0 → exec c s = .next s) ∧
      (p.crcOk = true → p.tagOk = true → p.rsvd = 0 → p.epoch = s.prl.epoch → p.seq ≠ s.prl.rxSeq → (∀ i j, c ≠ .join p i j) →
        exec c s = .next s) ∧
      (p.crcOk = true → p.tagOk = true → p.rsvd = 0 → p.epoch ≠ s.prl.epoch → unjoined s = false →
        exec c s = .next { s with prl := { s.prl with tagFail := min 65535 (s.prl.tagFail + 1) } }))

/-- R58, R62, R625 to R630, R633, R643 to R645, R650, R651, R653, Tables 16.3 and 16.9: heartbeats and retransmissions; losing
the link, the peer or its presence line; the fence; joining; the hand-back; a sample is run again at its snapshot, and the
result of the re-run settles it or goes to its arbitration. How a re-run is started is the model's choice (log 36). -/
def Obligations.PairTimersAndRoles : Prop :=
  ∀ (s : State), NoDrill s →
    let now := s.mer.elapsed
    (s.prl.paired = true → s.pwr.mainPower = true → s.prl.lastTx + 800 ≤ now → ∃ t, exec .heartbeatSend s = .next t ∧
      t.prl.unacked = s.prl.unacked ++ [(s.prl.txSeq, 1, heartbeatContent s)] ∧ t.prl.txSeq = s.prl.txSeq + 1 ∧
      t.prl.lastTx = now) ∧
    (s.prl.unacked ≠ [] → let l := s.prl.unacked.take 4096
      (s.prl.ackAt + 320 ≤ now → ∃ t, exec .plpRetransmit s = .next t ∧ t.out = s.out ++ l.map (fun f => .plp f.2.1 f.1 f.2.2) ∧
        t.prl = { s.prl with retx := min 0xFFFFFFFF (s.prl.retx + l.length), ackAt := now, lastTx := now }) ∧
      (now < s.prl.ackAt + 320 → exec .plpRetransmit s = .next s)) ∧
    (s.prl.linkUp = true → s.prl.lastRx + 6400 ≤ now →
      (roleOf s = .active → s.prl.aliveIn = true → exec .linkLoss s = .next { s with prl := { s.prl with
        linkUp := false, lossAt := now, peerJoining := false } }) ∧
      (roleOf s = .active → s.prl.aliveIn = false → ∃ t, exec .linkLoss s = .next t ∧ roleOf t = .single ∧
        t.prl.joined = false ∧ t.prl.pendingSolo = true ∧ t.prl.fence = s.prl.fence) ∧
      (roleOf s = .standby → s.prl.pendingRenounce = false → s.prl.aliveIn = true → ∃ t, exec .linkLoss s = .next t ∧
        roleOf t = .standby ∧ t.prl.pendingRenounce = true ∧ t.prl.fence = s.prl.fence) ∧
      (roleOf s = .standby → s.prl.pendingRenounce = false → s.prl.aliveIn = false →
        (∀ m ∈ s.ksc.commits, m.csn ≤ s.ksc.v) → ∃ t, exec .linkLoss s = .next t ∧ roleOf t = .single ∧
          t.prl.failover = true ∧ t.prl.pendingSolo = true ∧ t.prl.joined = false ∧
          t.prl.takeovers = min 255 (s.prl.takeovers + 1) ∧ t.mer.t = max s.mer.t s.prl.peerTime)) ∧
    (roleOf s = .active → s.prl.linkUp = true → s.prl.peerYield = false →
      exec .pairAliveInDeassert s = .next { s with prl := { s.prl with aliveIn := false } }) ∧
    (roleOf s = .active → s.prl.linkUp = false → ∃ t, exec .pairAliveInDeassert s = .next t ∧ roleOf t = .single ∧
      t.prl.aliveIn = false ∧ t.prl.pendingSolo = true) ∧
    (roleOf s = .active ∨ roleOf s = .single →
      exec .pairAliveInAssert s = .next { s with prl := { s.prl with aliveIn := true } }) ∧
    (s.prl.pendingRenounce = true → ∃ t, exec .soloDurable s = .next t ∧ roleOf t = .isolated ∧ t.prl.fence = false ∧
      t.prl.renounced = true ∧ t.prl.pendingRenounce = false) ∧
    (s.prl.pendingRenounce = false → s.prl.pendingSolo = true →
      (s.prl.failover = false → s.prl.unacked = [] → ∃ t, exec .soloDurable s = .next t ∧ t.prl.solo = true ∧
        t.prl.pendingSolo = false) ∧
      (s.prl.failover = true → ∃ t, exec .soloDurable s = .next t ∧ t.prl.solo = true ∧ t.prl.pendingSolo = false ∧
        t.prl.failover = false ∧ (∀ p < s.variant.hostPorts, (portOf t p).service = true) ∧
        (s.net.sessions.Pairwise (fun a b => a.id ≠ b.id) → ∀ x ∈ s.net.sessions, x.port < 4 → x.state ≠ .halfOpen →
          ∃ y, findSess t x.id = some y ∧ y.state = .resyncing ∧ y.gen = x.gen + 1 ∧
            y.txSeq = x.txSwitch.getD 0 + 2 ^ 48 + 1))) ∧
    (∃ t, exec .linkWaitLog s = .next t ∧ t = { s with log := t.log }) ∧
    (∃ t, exec .fenceWatchdogExpiry s = .next t ∧ t = { s with prl := { s.prl with fence := false } } ∧
      ∀ p < 4, txOpen t p = false) ∧
    (roleOf s = .joining → s.prl.joinSent = false → s.prl.joinStart + 32000000 ≤ now → s.lcf.holdWater = false →
      (s.prl.solo = true → s.prl.renounced = false → ∃ t, exec (.joinWaitExpiry none) s = .next t ∧ roleOf t = .single ∧
        t.prl.fence = true ∧ ∀ p < s.variant.hostPorts, (portOf t p).service = true) ∧
      (s.prl.solo = false ∨ s.prl.renounced = true → s.lcf.stage ≠ 9 → ∃ t, exec (.joinWaitExpiry none) s = .next t ∧
        t.lcf.holdWater = true ∧ t.lcf.failure = 0x0801) ∧
      (∀ h : PeerHeard, h.state = 1 ∨ h.state = 3 ∨ h.state = 5 → ∃ t, exec (.joinWaitExpiry (some h)) s = .next t ∧
        roleOf t = .joining ∧ t.prl.joinSent = true) ∧
      (∀ h : PeerHeard, h.state = 6 →
        (s.prl.solo = true → h.solo = true → ∃ t, exec (.joinWaitExpiry (some h)) s = .next t ∧
          t.lcf.holdWater = true ∧ t.lcf.failure = 0x0802) ∧
        (s.prl.solo = true → h.solo = false → ∃ t, exec (.joinWaitExpiry (some h)) s = .next t ∧ roleOf t = .single) ∧
        (s.prl.solo = false → h.solo = false → s.prl.preferred = true → ∃ t, exec (.joinWaitExpiry (some h)) s = .next t ∧
          roleOf t = .single) ∧
        (s.prl.solo = false → h.solo = true ∨ s.prl.preferred = false → ∃ t, exec (.joinWaitExpiry (some h)) s = .next t ∧
          roleOf t = .joining ∧ t.lcf.stage = 9))) ∧
    (s.prl.state = .active → s.prl.joined = true → s.prl.preferred = false → s.prl.arbitrations = [] →
      s.prl.handbackAt = none → s.prl.standbySince + holdoff s ≤ now → s.prl.paired = true → blockEn s 12 0 = true →
      ∃ t n, exec .holdoffExpiry s = .next t ∧ t.prl.handbackAt = some n ∧ n % 16000000 = 0 ∧ s.mer.t + 160000 ≤ n ∧
        n < s.mer.t + 160000 + 16000000 ∧ t.prl.unacked = s.prl.unacked ++ [(s.prl.txSeq, 11, [n])]) ∧
    (roleOf s = .active → s.prl.joined = true → ∃ n, exec .yieldReq s = .next { s with prl := { s.prl with
      handbackAt := some n } } ∧ n % 16000000 = 0 ∧ s.mer.t + 160000 ≤ n) ∧
    (roleOf s ≠ .active → ∃ t, exec .yieldReq s = .next t ∧ t = { s with regs := t.regs } ∧ rbit t 0x000C0008 15 = true) ∧
    (∀ n, s.prl.handbackAt = some n → roleOf s = .active → s.prl.joined = true →
      (s.mer.t < n → exec .handbackSecond s = .next s) ∧
      (n ≤ s.mer.t → liveChains s ≠ [] → s.prl.yielding = true → exec .handbackSecond s = .next s) ∧
      (n ≤ s.mer.t → liveChains s = [] → ∃ t, exec .handbackSecond s = .next t ∧ roleOf t = .joining ∧
        t.prl.fence = false ∧ t.dsp.work = [] ∧ t.dsp.delay = [] ∧ t.prl.handbacks = min 255 (s.prl.handbacks + 1) ∧
        ∀ p < s.variant.hostPorts, (portOf t p).service = false)) ∧
    (∀ e r k, sampleDue s e r = none → ∀ b, exec (.sampleRun (e, r) ⟨k, b⟩) s = .next s) ∧
    (∀ e r m, roleOf s = .standby → s.prl.arbitrations = [] → s.prl.samples.find? (isReq · e r) = some m →
      (s.ksc.v < m.snap → sampleDue s e r = none) ∧
      (m.snap ≤ s.ksc.v → (∀ x ∈ liveChains s, x.sample = none) → sampleDue s e r = some m)) ∧
    (∀ e r k b m c rest im pc q, sampleDue s e r = some m → freeCores s k = c :: rest → mayAssign s k = true →
      boundEntry s (cfgAt s m.snap) (sampleItem s m) = some (im, pc) → alGet (cfgAt s m.snap).queues m.queue = some q →
      ∃ t x, exec (.sampleRun (e, r) ⟨k, b⟩) s = .next t ∧ (t.core c).item = some x ∧ x.sample = some m ∧ x.snap = m.snap ∧
        x.cls = 3 ∧ x.payload = m.payload ∧ x.inst = m.inst ∧ x.sess = none ∧ x.tx = none ∧ x.budget = q.budget ∧
        (t.core c).ctx.pc = pc ∧ (∀ o, o ≠ c → t.core o = s.core o) ∧ t.prl.samples = s.prl.samples ∧
        t.prl.arbitrations = s.prl.arbitrations.map fun a => if isReq a.sample e r then { a with tests := b } else a) ∧
    ∀ (i : Issue) (x : Item) (len : Nat) (m : Sample), settled (issueSt s i) i.core = true →
      CoreReady s i (.svc .done 0 0 0) x len → x.sample = some m →
      let d := resultDigest 0 (replyCsn x) [] x.ranRecs
      ∃ t, exec (.done i) s = .next t ∧
        (s.prl.arbitrations = [] → roleOf s = .standby → s.prl.samples.any (isReq · m.sess m.reqId) = true →
          t.prl.samples = s.prl.samples.filter (fun y => !isReq y m.sess m.reqId) ∧
          t.prl.compared = min 0xFFFFFFFF (s.prl.compared + 1) ∧
          (d = m.digest → t.prl.mismatches = s.prl.mismatches ∧ t.prl.arbitrations = []) ∧
          (d ≠ m.digest → t.prl.mismatches = min 65535 (s.prl.mismatches + 1) ∧
            t.prl.arbitrations = [{ sample := m, own := d }])) ∧
        (∀ a, s.prl.arbitrations = [a] → isReq a.sample m.sess m.reqId = true → a.rerun = none → a.peer = none →
          t.prl.arbitrations = [{ a with rerun := some d }] ∧ t.prl.samples = s.prl.samples)

/-! ### Chapter 17: memory protection -/

/-- R660, R661, R664, R665, R667, R668, R671, R673, R676 to R678, R686 to R688, R690, R691: rekeys and rebuilds advance
generations and the boundary; a master rekey takes a fresh key and ends with it; a full rebuild ends with service or in
Hold-Water; a commit of the protection rules takes the shadow rules into force; the debug port reads and writes what its grant
and the locked ranges leave it; a written DRAM line is sealed anew under its next counter, and reads as what was written. -/
def Obligations.MemoryProtectionAdvances : Prop :=
  ∀ (s : State),
    (∀ w rest, s.mec.sweeps = w :: rest → s.mec.rebuilds = [] →
      (w.rebuild = false → exec .regionRebuildComplete s = .next s ∧
        ∃ t, exec .regionSweepComplete s = .next t ∧ t.mec.sweeps = rest ∧
          regionOf t w.region = { regionOf s w.region with gen := ((regionOf s w.region).gen + 1) % 2 ^ 40 } ∧
          t.mec.regionRekeys = min 0xFFFFFF (s.mec.regionRekeys + 1) ∧ ∀ r, r ≠ w.region → regionOf t r = regionOf s r) ∧
      (w.rebuild = true → exec .regionSweepComplete s = .next s ∧
        ∃ t, exec .regionRebuildComplete s = .next t ∧ t.mec.sweeps = rest ∧
          regionOf t w.region = { gen := ((regionOf s w.region).gen + 1) % 2 ^ 40, poison := [] } ∧
          t.mec.regionRebuilds = min 65535 (s.mec.regionRebuilds + 1) ∧
          ∀ r, r ≠ w.region → regionOf t r = regionOf s r)) ∧
    (s.mec.sweeps = [] → s.mec.masterRunning = true →
      (s.mec.boundary < s.variant.regions → ∃ t, exec .regionSweepComplete s = .next t ∧
        t.mec.boundary = s.mec.boundary + 1 ∧ (regionOf t s.mec.boundary).gen = 0 ∧ t.mec.master = s.mec.master) ∧
      (s.mec.regions.Pairwise (fun a b => a.1 ≠ b.1) → ∃ t, exec .masterRekeyComplete s = .next t ∧
        t.mec.master = s.mec.masterNew ∧ t.mec.masterNew = [] ∧ t.mec.masterRunning = false ∧
        (∀ r, (regionOf t r).gen = if r < s.mec.boundary then (regionOf s r).gen else 0) ∧
        (∀ r, (regionOf t r).poison = (regionOf s r).poison) ∧ t.mec.masterRekeys = min 255 (s.mec.masterRekeys + 1))) ∧
    (s.mec.masterRunning = false → blockEn s 13 0 = true → s.mec.paused = false → SysServes s 1 → ∀ k, Draws s .mec 32 k →
      let begun (t : State) := t.mec = { s.mec with
        masterRunning := true, boundary := 0, masterNew := k, drawnNew := s.mer.elapsed }
      (∃ t, exec .masterRekey s = .next t ∧ begun t) ∧
      (s.mec.drawnAt + masterPeriod s ≤ s.mer.elapsed → ∃ t, exec .masterRekeyPeriod s = .next t ∧ begun t) ∧
      (s.mer.elapsed < s.mec.drawnAt + masterPeriod s → exec .masterRekeyPeriod s = .next s)) ∧
    (s.mec.masterRunning = true → ∃ t, exec .masterRekey s = .next t ∧ t.mec = s.mec ∧ rbit t 0x000D0008 9 = true) ∧
    (s.mec.paused = true → s.mec.masterDue = false →
      (∃ t, exec (.fullRebuildComplete true) s = .next t ∧ t.mec.paused = false ∧ t.mec.regions = [] ∧ t.mec.dram = [] ∧
        t.net.retention = recreated s ∧ t.lcf = s.lcf) ∧
      ∃ t, exec (.fullRebuildComplete false) s = .next t ∧ t.mec.paused = false ∧ t.lcf.holdWater = true ∧
        t.lcf.failure = 0x0901) ∧
    (s.mec.paused = true → s.mec.masterDue = true → sysReady s = false → ∀ b,
      ∃ t, exec (.fullRebuildComplete b) s = .next t ∧ t.mec = s.mec ∧ t.net = s.net ∧ t.lcf = s.lcf) ∧
    (s.mec.paused = false → s.mec.masterDue = false → ∀ b, exec (.fullRebuildComplete b) s = .next s) ∧
    (s.apu.pending = false → exec .apuCommit s = .next { s with apu := { s.apu with
      prev := s.apu.active, active := s.apu.shadow, epoch := (s.apu.epoch + 1) % 65536, pending := true } }) ∧
    (s.apu.pending = true → ∃ t, exec .apuCommit s = .next t ∧ t.apu = s.apu ∧ rbit t 0x000E0008 3 = true) ∧
    exec .apuCommitComplete s = .next { s with apu := { s.apu with prev := [], pending := false } } ∧
    (debugLevel s = 0 → ∀ a n w d, exec (.debugAccess a n w d) s = .next s) ∧
    (∀ a n, 0 < n → debugLevel s = 2 → debugFits s.variant a n = true → debugLocked s.variant a = true →
      (lcState s).factory = false → lcState s ≠ .deployed → ∃ t, exec (.debugAccess a n false []) s = .next t ∧
        t.out = s.out ++ [.debug (zeros n)] ∧ t.apu = { s.apu with debugDenied := min 65535 (s.apu.debugDenied + 1) } ∧
        t.cores = s.cores ∧ t.scratch = s.scratch ∧ t.ksc = s.ksc) ∧
    (∀ (l k : Nat) (old new : List Byte), (lcState s).factory = true → blockEn s 13 0 = true → old.length = 64 →
      new.length = 64 → debugFits s.variant (64 * l) 64 = true → 0x40000000 ≤ l → regionOfLine l < areaStart s.variant 46 →
      linePoisoned s l = false → 0 < k → k < 16711679 →
      let key := regionKey s.mec (regionOfLine l)
      let x (k : Kind) : Access :=
        { init := 72, target := (targetOf s.variant (64 * l)).getD 0, priv := true, dom := 0, kind := k }
      alGet s.mec.dram l = some (sealLine key l k old) →
      (apuRefuses s (x .read) (64 * l) 64 = none →
        exec (.debugAccess (64 * l) 64 false []) s = .next (emit s (.debug old))) ∧
      (apuRefuses s (x .write) (64 * l) 64 = none → exec (.debugAccess (64 * l) 64 true new) s =
        .next { s with mec := { s.mec with dram := putLine s.mec.dram l (sealLine key l (k + 1) new) } })) ∧
    ∀ (c : CoreId) (off n : Nat) (d : List Byte), (lcState s).factory = true → c.val < s.variant.cores → 0 < n →
      off + n ≤ 65536 →
      let a := 0x0110000000 + c.val * 0x10000 + off
      let x (k : Kind) : Access := { init := 72, target := 96, priv := true, dom := 0, kind := k }
      (apuRefuses s (x .read) a n = none → exec (.debugAccess a n false d) s =
        .next (emit s (.debug (Mem.read (s.core c).ldm off n)))) ∧
      (apuRefuses s (x .write) a n = none → d.length = n → exec (.debugAccess a n true d) s =
        .next (s.setCore c { s.core c with ldm := Mem.write (s.core c).ldm off d }))

/-! ### Chapter 18: alarms -/

/-- R696 to R706, R709, R713, R717 to R720, R804, Tables 18.2 and 18.4: each condition fires its source once, with its detail,
and the source's response comes into force; a condition that still holds does not fire again; the end of a condition, of a
throttle and of the backup supply; a latched event is programmed into the evidence store. -/
def Obligations.AlarmSourcesFire : Prop :=
  ∀ (s : State),
    (∀ n l, n < 8 → (loopFails s n l = false → exec (.etmpLoopFail n l) s = .next s) ∧
      (loopFails s n l = true → Armed s n → ∃ t, exec (.etmpLoopFail n l) s = .next t ∧
        Raised s t n ((if rbit s 0x000F0020 n then 1 else 0) + lastSamples l.bits * 256))) ∧
    (∀ n, n < 4 → Armed s (8 + n) → ∃ t, exec (.caseOpen n) s = .next t ∧ Raised s t (8 + n) 0) ∧
    (∀ m, m % 65536 ≠ 0 → Armed s 12 → ∃ t, exec (.mesh m) s = .next t ∧ Raised s t 12 (m % 65536) ∧
      t.bin.meshFail = m % 65536) ∧
    (∀ v, Armed s 13 → v < 2700 → ∃ t, exec (.battLow v) s = .next t ∧ Raised s t 13 v) ∧
    (∀ v, 2700 ≤ v → exec (.battLow v) s = .next { s with bin := { s.bin with vbat := v } }) ∧
    (∀ v, Armed s 14 → v < 2350 → s.pwr.mainPower = false → ∃ t, exec (.battCrit v) s = .next t ∧ Raised s t 14 v) ∧
    (∀ v, s.pwr.mainPower = true → exec (.battCrit v) s = .next { s with bin := { s.bin with vbat := v } }) ∧
    (∀ v : Int, Armed s 15 → v < -30 ∨ 90 < v → ∃ t, exec (.binTemp v) s = .next t ∧ Raised s t 15 (twos v) ∧
      t.bin.temp = v) ∧
    (∀ v : Int, -30 ≤ v → v ≤ 90 → exec (.binTemp v) s = .next { s with bin := { s.bin with temp := v } }) ∧
    (∀ d, Armed s 16 → s.pwr.downRunning = false → ∃ t, exec (.supply d) s = .next t ∧ Raised s t 16 d) ∧
    (∀ d, s.pwr.downRunning = true → exec (.supply d) s = .next s) ∧
    (∀ m, (Armed s 17 → ∃ t, exec (.clock m) s = .next t ∧ Raised s t 17 m) ∧
      ((sourceOf s 17).active = true → exec (.clock m) s = .next s)) ∧
    (∀ v, (Armed s 18 → 110 ≤ v → ∃ t, exec (.dieHot v) s = .next t ∧ Raised s t 18 v) ∧
      (v < 110 → exec (.dieHot v) s = .next s)) ∧
    (∀ v : Int, (Armed s 19 → v ≤ -25 → ∃ t, exec (.dieCold v) s = .next t ∧ Raised s t 19 (twos v)) ∧
      (-25 < v → exec (.dieCold v) s = .next s)) ∧
    (∀ m, m % 2 ^ 32 ≠ 0 → Armed s 20 → ∃ t, exec (.light m) s = .next t ∧ Raised s t 20 (m % 2 ^ 32)) ∧
    (∀ g, Armed s 21 → ∃ t, exec (.shield g) s = .next t ∧ Raised s t 21 g) ∧
    (∀ n, n < 29 → (sourceOf s n).active = true → ∃ t, exec (.alarmConditionClear n) s = .next t ∧
      sourceOf t n = { sourceOf s n with active := false, absentAt := some s.mer.elapsed, absentRtc := rtcTicks s } ∧
      t.bin.pend = s.bin.pend ∧ ∀ m, m ≠ n → sourceOf t m = sourceOf s m) ∧
    (s.bin.throttle ≠ [] → (∀ n ∈ s.bin.throttle, (sourceOf s n).active = false ∧
        ∃ a, (sourceOf s n).absentAt = some a ∧ a + 160000000 ≤ s.mer.elapsed) →
      ∃ t, exec .throttleEnd s = .next t ∧ t.bin.throttle = [] ∧
        (s.pwr.forced = true → ∃ n, t.pwr.unforceAt = some n ∧ n % 16000000 = 0 ∧ s.mer.t ≤ n ∧ n < s.mer.t + 16000000)) ∧
    (s.bin.throttle ≠ [] → (∀ n ∈ s.bin.throttle, (sourceOf s n).active = true) → exec .throttleEnd s = .next s) ∧
    (∀ e rest, s.bin.pend = e :: rest → s.pwr.mainPower = true → 2 ≤ e.resp →
      (s.bin.used + 1 < s.variant.evidence → ∃ t, exec (.evidenceProgram true) s = .next t ∧ t = { s with bin := t.bin } ∧
        t.bin.pend = rest ∧ t.bin.used = s.bin.used + 1 ∧
        (s.variant = .wx7480 → t.bin.store = s.bin.store ++ [(e, s.bin.used)])) ∧
      (s.variant.evidence ≤ s.bin.used → ∃ t, exec (.evidenceProgram true) s = .next t ∧ t.bin.pend = rest ∧
        t.bin.evidenceLost = min 65535 (s.bin.evidenceLost + 1) ∧ t.bin.store = s.bin.store) ∧
      exec (.evidenceProgram false) s = .next s) ∧
    (∀ v, binnacleFed s = false → ∃ t, exec (.backupCellConnect v) s = .next t ∧ t.bin.vbat = v ∧
      t.bin.firstPower = true ∧ t.bin.share = false ∧ t.bin.rtcValid = false ∧ t.bin.pend = [] ∧
      t.bin.store = s.bin.store) ∧
    (∀ v, binnacleFed s = true →
      exec (.backupCellConnect v) s = .next { s with bin := { s.bin with vbat := v, rtcValid := false } }) ∧
    ∀ v : Int, ∃ t, exec (.coldPlateOutOfRange v) s = .next t ∧ t = { s with smb := t.smb } ∧
      (s.suffixE = false → (t.smb.faceOut = true ↔ v < 0 ∨ 45 < v)) ∧
      (s.suffixE = true → (t.smb.faceOut = true ↔ v < -5 ∨ 55 < v)) ∧
      (t.smb.alert = true ↔ s.smb.alert = true ∨ (t.smb.faceOut = true ∧ s.smb.faceOut = false))

/-! ### Chapters 19 and 21: start, power and the life cycle -/

/-- R357 to R360, R397, R528, R620, R630, R658, R693, R723 to R730, R735, R742 to R744, Tables 19.1 to 19.3: each start stage
passes to the next or fails with its code; a failure before COX_BOOT waits for that stage; PAIR_JOIN ends in service, in
JOINING or in Hold-Water. -/
def Obligations.StartStagesRunInOrder : Prop :=
  ∀ (s : State),
    (atStage s 0 = true →
      (s.mer.elapsed < s.pwr.startAt → ∀ b, exec (.power b) s = .next s) ∧
      (s.pwr.startAt ≤ s.mer.elapsed → exec (.power true) s = .next { s with lcf := { s.lcf with stage := 1 } } ∧
        ∃ t, exec (.power false) s = .next t ∧ StartFails s t 0x0001)) ∧
    (atStage s 1 = true →
      (s.bin.pend = [] → s.bin.overflow = 0 → s.bin.firstPower = false → ∀ b,
        (s.bin.used < s.variant.evidence → exec (.binnacleCheck b) s = .next { loadVlans (loadRecord bootLoads s) with
          bin := { s.bin with cycles := min 16777215 (s.bin.cycles + 1) }, lcf := { s.lcf with stage := 2 } }) ∧
        (s.variant.evidence ≤ s.bin.used → ∃ t, exec (.binnacleCheck b) s = .next t ∧ StartFails s t 0x0102)) ∧
      (s.bin.pend ≠ [] → s.bin.used < s.variant.evidence →
        ∃ t, exec (.binnacleCheck false) s = .next t ∧ StartFails s t 0x0101)) ∧
    (fuseDue s = true → s.lcf.stage = 2 → s.lcf.deferredFailure = 0 →
      (openTransition s = none → ∀ k, ∃ t, exec (.fuseLoad k) s = .next t ∧ blockEn t 16 0 = true ∧
        (lcState s = .provisioning ∨ lcState s = .deployed ∨ lcState s = .rma → t.lcf = { s.lcf with stage := 3 }) ∧
        (lcState s = .invalid → StartFails s t 0x0201) ∧
        (lcState s = .raw ∨ lcState s = .testLocked ∨ lcState s = .testUnlocked → StartFails s t 0x0203) ∧
        (lcState s = .scrapped → t.lcf.romHold = true ∧ t.lcf.failure = 0x0205 ∧ t.pwr.starting = false)) ∧
      (∀ p, openTransition s = some p → lcState s ≠ .scrapped →
        ∃ t, exec (.fuseLoad (some p.next)) s = .next t ∧ StartFails s t 0x0202) ∧
      (∀ p n, openTransition s = some p → p.code = 6 → s.lcf.held = none → lcWords s = some n → n ≤ 20 →
        ∃ t, exec (.fuseLoad none) s = .next t ∧ openTransition t = none ∧ lcState t = .rma ∧ t.lcf.stage = 3)) ∧
    (coxDue s = true → lcState s ≠ .scrapped →
      (s.lcf.deferredFailure = 0 → (fwOk s s.lcf.slotAFw = true ∨ fwOk s s.lcf.slotBFw = true) →
        ∃ t, exec .coxBoot s = .next t ∧ t.lcf.stage = 4 ∧
          t.lcf.slotB = (if s.lcf.slotB then fwOk s s.lcf.slotBFw else !fwOk s s.lcf.slotAFw) ∧
          ∀ b ∈ [0, 10, 14, 15, 17, 18, 19, 20, 21], blockEn t b 0 = true) ∧
      (s.lcf.deferredFailure ≠ 0 → fwOk s s.lcf.slotAFw = true ∨ fwOk s s.lcf.slotBFw = true →
        ∃ t, exec .coxBoot s = .next t ∧ t.lcf.holdWater = true ∧ t.lcf.failure = s.lcf.deferredFailure) ∧
      (fwOk s s.lcf.slotAFw = false → fwOk s s.lcf.slotBFw = false → ∃ t, exec .coxBoot s = .next t ∧
        t.lcf.romHold = true ∧ t.pwr.starting = false ∧
        t.lcf.failure = if s.lcf.slotAFw.valid || s.lcf.slotBFw.valid then 0x0302 else 0x0301)) ∧
    (atStage s 4 = true → ∀ r : SelfTest,
      (selfTestCode s r = 0 → allSeeded s = true →
        (lcState s ≠ .rma → ∃ t, exec (.selfTest r) s = .next t ∧ t.lcf.stage = 5 ∧
          ∀ e < s.variant.symEngines, (engineOf s .hash e).katFail = false →
            (engineOf t .hash e).online = !r.badHash.contains e) ∧
        (lcState s = .rma → ∃ t, exec (.selfTest r) s = .next t ∧ t.lcf.holdWater = true ∧ t.lcf.failure = 0x0204)) ∧
      (r.row2 = false → ∃ t, exec (.selfTest r) s = .next t ∧ StartFails s t 0x0401) ∧
      (row1Fails s.variant r = false → r.row2 = true → r.row3 = false →
        ∃ t, exec (.selfTest r) s = .next t ∧ StartFails s t 0x0402) ∧
      (row1Fails s.variant r = false → r.row2 = true → r.row3 = true → r.row4 = true → (∃ n < 4, srcOf s n = .retired) →
        ∃ t, exec (.selfTest r) s = .next t ∧ StartFails s t 0x0404)) ∧
    (atStage s 5 = true → ∀ low mid high : List Byte,
      let reading := low ++ mid ++ high
      let helper := s.lcf.pufHelper.getD []
      let mrk := rootKey reading helper s.bin.shareId
      let check := (rootDerived mrk "CHECK").take 16
      let good := s.lcf.pufHelper.isSome && Config.cryptoOk .pufSecret [reading, helper]
      let took (t : State) (c : Option (List Byte)) := t.lcf.stage = 6 ∧ t.ksc = { s.ksc with
        rootOk := true, pufErr := min 65535 (Config.pufCorrected reading helper), rootCheck := c
        kRecord := some (rootDerived mrk "RECORD"), kJournal := some (rootDerived mrk "JOURNAL") }
      (s.bin.share = false → ∃ t, exec (.pufRoot low mid high) s = .next t ∧ StartFails s t 0x0501) ∧
      (s.bin.share = true → good = false → ∃ t, exec (.pufRoot low mid high) s = .next t ∧ StartFails s t 0x0502) ∧
      (s.bin.share = true → good = true →
        (s.ksc.rootCheck = some check → ∃ t, exec (.pufRoot low mid high) s = .next t ∧ took t (some check)) ∧
        (∀ c, s.ksc.rootCheck = some c → c ≠ check →
          ∃ t, exec (.pufRoot low mid high) s = .next t ∧ StartFails s t 0x0503) ∧
        (s.ksc.rootCheck = none → (lcState s = .provisioning →
            ∃ t, exec (.pufRoot low mid high) s = .next t ∧ took t (some check)) ∧
          (lcState s ≠ .provisioning → ∃ t, exec (.pufRoot low mid high) s = .next t ∧ StartFails s t 0x0503)))) ∧
    (atStage s 6 = true →
      (∀ b, ∃ t, exec (.dramTrainTest false b) s = .next t ∧ StartFails s t 0x0601) ∧
      (∃ t, exec (.dramTrainTest true false) s = .next t ∧ StartFails s t 0x0602) ∧
      (SysServes s 1 → ∀ k, Draws s .mec 32 k → ∃ t, exec (.dramTrainTest true true) s = .next t ∧ t.lcf.stage = 7 ∧
        t.mec = { s.mec with master := k, drawnAt := s.mer.elapsed } ∧ blockEn t 13 0 = true)) ∧
    (atStage s 7 = true →
      (∀ b l, ∃ t, exec (.keystoreOpen b true l) s = .next t ∧ StartFails s t 0x0701) ∧
      (lcState s ≠ .provisioning ∨ s.ksc.own.isSome = true →
        ∃ t, exec (.keystoreOpen false false []) s = .next t ∧ t.lcf.stage = 8 ∧ blockEn t 4 0 = true ∧
          t.ksc.commits = s.ksc.commits.filter (fun m => decide (m.csn ≤ max s.ksc.die0 s.ksc.die1)) ∧
          t.ksc.v = t.ksc.durable ∧ (∀ m ∈ t.ksc.commits, m.csn ≤ t.ksc.v) ∧ t.ksc.loaded = true ∧
          t.ksc.base = s.ksc.base ∧ t.ksc.own = s.ksc.own) ∧
      (lcState s = .provisioning → s.ksc.own = none → SysServes s 4 →
        ∃ t u v w x y z k m, exec (.keystoreOpen false false []) s = .next t ∧ t.lcf.stage = 8 ∧
          sysDraw s .ksc 32 = some (x, u) ∧ sysDraw u .ksc 32 = some (y, v) ∧ sysDraw v .ksc 64 = some (z, w) ∧
          sysDraw w .unit 32 = some (k, m) ∧
          t.ksc.own = some { identity := x, attest := y, backup := z, attestDigest := sha3_256 (derivePublic 0x28 y 1312) } ∧
          t.lcf.serviceSeed = some k)) ∧
    (atStage s 8 = true → s.prl.state = .undecided →
      (s.prl.retired = true → ∀ h, ∃ t, exec (.pairJoin h) s = .next t ∧ t.lcf.holdWater = true ∧
        t.lcf.failure = 0x0803) ∧
      (s.prl.retired = false → s.prl.paired = false → ∀ h, ∃ t, exec (.pairJoin h) s = .next t ∧ roleOf t = .single ∧
        t.lcf.stage = 9 ∧ t.prl.fence = true ∧ ∀ p < s.variant.hostPorts, (portOf t p).service = true) ∧
      (s.prl.retired = false → s.prl.paired = true → ∃ t, exec (.pairJoin none) s = .next t ∧ roleOf t = .joining ∧
        t.lcf.stage = 8 ∧ t.prl.fence = false))

/-- R723, R736 to R738, R746, R767, R768, R790 to R792, R801, Tables 19.7 and 19.8: power and RESET_N begin a start or an
orderly power-down; a transition takes a progress record, marks its steps in order and ends in its state; test tokens and the
factory commands begin transitions; `relock` closes debug access. -/
def Obligations.PowerAndLifeCycle : Prop :=
  ∀ (s : State),
    (s.pwr.pwrGood = false → s.pwr.resetN = true → s.pwr.downRunning = false → s.pwr.mainPower = false →
      ∃ t, exec .pwrGoodAssert s = .next t ∧ VolatileGone s t ∧ t.pwr.mainPower = true ∧ t.pwr.starting = true ∧
        t.lcf.stage = 0 ∧ t.pwr.pwrGoodAt = s.mer.elapsed) ∧
    (s.pwr.pwrGood = false → s.pwr.resetN = false → exec .pwrGoodAssert s = .next { s with
      pwr := { s.pwr with pwrGood := true, pwrGoodAt := s.mer.elapsed,
                          startAsked := s.pwr.startAsked || s.pwr.downRunning } }) ∧
    (s.pwr.mainPower = true →
      let down (t : State) := VolatileGone s t ∧ t.pwr.mainPower = false ∧ t.pwr.downRunning = true ∧ t.log.ring = [] ∧
        t.log.undrained = 0
      (∃ t, exec .pwrGoodDeassert s = .next t ∧ down t ∧ t.pwr.pwrGood = false) ∧
      (∃ t, exec .vmainBelowThreshold s = .next t ∧ down t ∧ t.pwr.vmainOk = false) ∧
      ∃ t, exec .resetNAssert s = .next t ∧ down t ∧ t.pwr.resetN = false) ∧
    (s.pwr.mainPower = false →
      exec .pwrGoodDeassert s = .next { s with pwr := { s.pwr with pwrGood := false } } ∧
      exec .vmainBelowThreshold s = .next { s with pwr := { s.pwr with vmainOk := false } } ∧
      exec .resetNAssert s = .next { s with pwr := { s.pwr with resetN := false } } ∧
      (s.pwr.resetN = false → s.pwr.pwrGood = true → s.pwr.downRunning = false → ∃ t, exec .resetNRelease s = .next t ∧
        VolatileGone s t ∧ t.pwr.mainPower = true ∧ t.lcf.stage = 0) ∧
      (s.pwr.resetN = false → s.pwr.pwrGood = false ∨ s.pwr.downRunning = true → exec .resetNRelease s = .next { s with
        pwr := { s.pwr with resetN := true, startAsked := s.pwr.startAsked || s.pwr.downRunning } })) ∧
    (s.pwr.resetN = true → exec .resetNRelease s = .next s) ∧
    (s.pwr.vmainOk = false → (binnacleFed s = true → exec .vmainInRange s = .next { s with
        pwr := { s.pwr with vmainOk := true, vmainAt := s.mer.elapsed }, smb := {} }) ∧
      (binnacleFed s = false → exec .vmainInRange s = .next { binnacleCold s with
        pwr := { s.pwr with vmainOk := true, vmainAt := s.mer.elapsed }, smb := {} })) ∧
    (s.pwr.downRunning = true → s.pwr.mainPower = false → s.pwr.pwrGood = false ∨ s.pwr.startAsked = false →
      exec .powerDownComplete s = .next { s with
      pwr := { s.pwr with downRunning := false, startAsked := false }
      log := { s.log with savedOptime := s.log.optime, orderlyLast := true } }) ∧
    (s.pwr.downRunning = true → s.pwr.startAsked = true → s.pwr.pwrGood = true → s.pwr.resetN = true →
      s.pwr.mainPower = false → ∃ t, exec .powerDownComplete s = .next t ∧ VolatileGone s t ∧ t.pwr.mainPower = true ∧
        t.lcf.stage = 0 ∧
        t.pwr.startAt = s.mer.elapsed + 160000) ∧
    (∀ p, openTransition s = some p → s.lcf.running = true → s.pwr.mainPower = true →
      (exec (.lifecycleTransition false) s = .next { s with lcf := { s.lcf with running := false } }) ∧
      (stepReady s p p.next = true → ∃ t, exec (.lifecycleTransition true) s = .next t ∧
        t.lcf.progress = s.lcf.progress.dropLast ++ [{ p with marks := p.marks + 2 ^ p.next }]) ∧
      (stepReady s p p.next = false → exec (.lifecycleTransition true) s = .next s) ∧
      (p.code = 6 → p.marks = 0 → ∃ t, exec (.lifecycleTransition true) s = .next t ∧ t.bin.share = false ∧
        t.ksc.rootOk = false ∧ t.ksc.cache = [] ∧ t.mec.master = [] ∧ ∀ c, (t.core c).ldm = []) ∧
      (p.code = 6 → p.marks = 1 → ∃ t, exec (.lifecycleTransition true) s = .next t ∧ t.ksc.commits = [] ∧
        t.ksc.base = {} ∧ t.prl.paired = false ∧ t.qrm.copy = none ∧ t.log.nand = s.log.nand) ∧
      (p.code = 5 → p.marks = 1 → s.lcf.restartAfter = false → s.lcf.held = none → lcWords s = some 18 →
        ∃ t, exec (.lifecycleTransition true) s = .next t ∧ lcState t = .deployed ∧ t.lcf.running = false)) ∧
    (s.lcf.running = false → ∀ b, exec (.lifecycleTransition b) s = .next s) ∧
    (∀ d j, s.pwr.mainPower = true → lcState s = .testLocked → s.lcf.badTokens < 16 → j < 8 →
      bitOf s.lcf.tokensUsed j = false → (∀ i < j, bitOf s.lcf.tokensUsed i = true) →
      (s.lcf.tokens[j]? = some (sha3_256 d) → mayTransit s = true → ∃ t, exec (.testToken d) s = .next t ∧
        t.lcf.running = true ∧
        t.lcf.progress = s.lcf.progress ++ [{ code := 2, marks := 0, token := j + 1 }]) ∧
      (s.lcf.tokens[j]? ≠ some (sha3_256 d) → ∃ t, exec (.testToken d) s = .next t ∧
        t.lcf = { s.lcf with badTokens := s.lcf.badTokens + 1 })) ∧
    (∀ d, 16 ≤ s.lcf.badTokens → exec (.testToken d) s = .next s) ∧
    (∀ l, s.pwr.mainPower = true → mayTransit s = true →
      (lcState s = .raw → l.length = 8 → ∃ t, exec (.factoryJtagCommand 1 l) s = .next t ∧ t.lcf = { s.lcf with
        tokens := l, progress := s.lcf.progress ++ [{ code := 1, marks := 0 }], running := true, restartAfter := false }) ∧
      (lcState s = .testUnlocked → ∃ t, exec (.factoryJtagCommand 3 l) s = .next t ∧ t.lcf = { s.lcf with
        progress := s.lcf.progress ++ [{ code := 3, marks := 0 }], running := true, restartAfter := false }) ∧
      (lcState s = .deployed → ∀ c, exec (.factoryJtagCommand c l) s = .next s)) ∧
    exec .dbgRelock s = .next { s with dbg := { s.dbg with level := 0 } }

/-! ### Chapters 20 and 21: the Log, profiles, Drill and SMBus -/

/-- R767 to R774, R776 to R780, R783 to R786, Tables 20.6 and 21.4: the Log drains its oldest record, freezes and thaws;
counters are cleared; a profile takes effect at its second, domains power down once idle and the power cap holds assignment;
Drill arms under a permit, holds frames for their time and is silent once its permit has ended. -/
def Obligations.LogProfilesAndDrill : Prop :=
  ∀ (s : State),
    (∀ r, s.pwr.mainPower = true → blockEn s 17 0 = true → 0 < s.log.undrained →
      alGet s.log.ring ((s.log.wptr + ringSize - s.log.undrained) % ringSize) = some r →
      ∃ t, exec .logRecordDrain s = .next t ∧ t = { s with log := t.log } ∧ t.log.undrained = s.log.undrained - 1 ∧
        alGet t.log.nand s.log.head = some r ∧ t.log.head = (s.log.head + 1) % 16777216 ∧ t.log.ring = s.log.ring ∧
        ∀ n, n ≠ s.log.head → alGet t.log.nand n = alGet s.log.nand n) ∧
    (s.log.frozen = none → (∃ t, exec .logFreeze s = .next t ∧ t.log = { s.log with frozen := some s.mer.elapsed } ∧
        rbit t 0x00110004 1 = true) ∧ exec .logThaw s = .next s ∧ exec .freezeExpiry s = .next s) ∧
    (∀ n, s.log.frozen = some n → exec .logFreeze s = .next s ∧
      (∃ t, exec .logThaw s = .next t ∧ t.log.frozen = none ∧ t.log.side = [] ∧ t.log.missed = 0 ∧
        rbit t 0x00110004 1 = false) ∧
      (n + 160000000 ≤ s.mer.elapsed → ∃ t, exec .freezeExpiry s = .next t ∧ t.log.frozen = none ∧
        rbit t 0x00110008 3 = true) ∧
      (s.mer.elapsed < n + 160000000 → exec .freezeExpiry s = .next s)) ∧
    (s.pwr.mainPower = true → s.log.savedOptime + 60 ≤ s.log.optime → exec .optimeSave s = .next { s with
      log := { s.log with savedOptime := s.log.optime } }) ∧
    (∃ t, exec .trbClear s = .next t ∧ t = { s with log := t.log } ∧
      (rbit s 0x00110800 12 = true → alGet t.log.trbMod (fld s 0x00110800 16 6) = none ∧ t.log.trbInst = s.log.trbInst) ∧
      (rbit s 0x00110800 12 = false →
        alGet t.log.trbInst (fld s 0x00110800 0 12, fld s 0x00110800 16 6) = none ∧ t.log.trbMod = s.log.trbMod)) ∧
    (∀ p n, s.pwr.pending = some (p, n) → n ≤ s.mer.t →
      (s.pwr.forced = false → s.pwr.unforceAt = none → ∃ t, exec .profileSwitch s = .next t ∧ t.pwr.committed = p ∧
        t.pwr.pending = none ∧ t.pwr.effective = p.code ∧
        ∀ d, d ∈ t.pwr.goingDown ↔ d ∈ s.pwr.domains ∧ d ∈ downDomains s.variant p.code) ∧
      (s.pwr.forced = true → s.pwr.unforceAt = none → ∃ t, exec .profileSwitch s = .next t ∧ t.pwr.committed = p ∧
        t.pwr.pending = none ∧ t.pwr.effective = s.pwr.effective)) ∧
    (∀ n, s.pwr.pending = none → s.pwr.forced = true → s.pwr.unforceAt = some n → n ≤ s.mer.t →
      ∃ t, exec .profileSwitch s = .next t ∧ t.pwr.forced = false ∧ t.pwr.effective = s.pwr.committed.code) ∧
    (∀ d, (d ∈ s.pwr.goingDown → domainBusy s d = false → ∃ t, exec (.domainPowerDown d) s = .next t ∧
        t = { s with pwr := t.pwr, pcache := t.pcache } ∧ d ∉ t.pwr.domains ∧ d ∉ t.pwr.goingDown ∧
        (∀ k, vget t.pcache k {} = if d = 2 * k ∧ k < 8 then {} else vget s.pcache k {}) ∧
        ∀ e, e ≠ d → (e ∈ t.pwr.domains ↔ e ∈ s.pwr.domains)) ∧
      (domainBusy s d = true → exec (.domainPowerDown d) s = .next s) ∧
      ∃ t, exec (.domainPowerUp d) s = .next t ∧ t = { s with pwr := t.pwr, pcache := t.pcache } ∧ d ∉ t.pwr.goingUp ∧
        t.pwr.domains = s.pwr.domains) ∧
    (∀ n, (blockEn s 18 0 = true → capDw s.variant s.pwr.effective < n → s.pwr.limiting = false →
        ∃ t, exec (.powerCapExceeded n) s = .next t ∧ t.pwr.limiting = true ∧
          t.pwr.limitEvents = min 0xFFFFFFFF (s.pwr.limitEvents + 1)) ∧
      (∃ t, exec (.powerCapRelease n) s = .next t ∧ (n * 100 < 97 * capDw s.variant s.pwr.effective → t.pwr.limiting = false) ∧
        (97 * capDw s.variant s.pwr.effective ≤ n * 100 → t.pwr.limiting = s.pwr.limiting))) ∧
    (∀ i, injPresent s i = false → exec (.drillArm i) s = .next s) ∧
    (∀ i, injPresent s i = true → blockEn s 20 0 = true → (injOf s i).armed = false →
      (lcState s = .deployed → (injOf s i).permit = none → ∃ t, exec (.drillArm i) s = .next t ∧ t.drl = s.drl ∧
        rbit t 0x00140008 2 = true) ∧
      (lcState s ≠ .deployed ∨ (injOf s i).permit ≠ none → SysServes s 1 → ∀ b, Draws s .unit 4 b →
        ∃ t, exec (.drillArm i) s = .next t ∧ injOf t i = { injOf s i with
            armed := true, lfsr := BitVec.ofNat 32 (leNat b) } ∧
          rbit t (drlAddr i 0x010) 0 = true ∧ ∀ k, k ≠ i → injOf t k = injOf s k)) ∧
    (∀ i o h, i < 5 → (injOf s i).held = [h] → h.frame = .send o →
      (h.since + 1600 ≤ s.mer.elapsed → ∃ t, exec (.reorderHoldTimeout i) s = .next t ∧ t.out = s.out ++ [o] ∧
        (injOf t i).held = []) ∧
      (s.mer.elapsed < h.since + 1600 → h.left ≠ 0 → exec (.reorderHoldTimeout i) s = .next s)) ∧
    (∀ i n, i < 5 → (injOf s i).permit = some n → (∀ k, (injOf s k).held = []) →
      (n ≤ s.mer.t → ∃ t, exec .permitExpiry s = .next t ∧ (injOf t i).permit = none ∧ (injOf t i).armed = false ∧
        rbit t (drlAddr i 0x010) 0 = false)) ∧
    ∀ i < 5, (s.mer.elapsed / 16000 ≤ (injOf s i).ms → exec (.drillLogMs i) s = .next s) ∧
      ((injOf s i).ms < s.mer.elapsed / 16000 → 0 < (injOf s i).drops → ∃ t, exec (.drillLogMs i) s = .next t ∧
        injOf t i = { injOf s i with drops := 0, corrupts := 0, others := 0 } ∧ (∀ k, k ≠ i → injOf t k = injOf s k)) ∧
      ((injOf s i).drops = 0 → (injOf s i).corrupts = 0 → (injOf s i).others = 0 → exec (.drillLogMs i) s = .next s)

/-- R801 to R804, Table 21.7: before service nothing is answered; a read answers its count, its data and a packet error code
over the whole message; a message whose own code fails, a write and an unlisted offset are not acknowledged; the alert response
gives the address and releases the alert line. The polynomial of the packet error code is presumed, and measured values are
operands (log 94). -/
def Obligations.SmbusTargetAnswers : Prop :=
  ∀ (s : State),
    let rd_ := smbAddr s true
    let wr := smbAddr s false
    let reply (req data : List Byte) : State := emit s (.smb (BitVec.ofNat 8 data.length :: data ++
      [pec (wr :: req ++ rd_ :: BitVec.ofNat 8 data.length :: data)]))
    (smbServes s = false → ∀ b x y k e, ∀ c ∈ [Instr.smbIdentity b, .smbPower b x y, .smbCell b e, .smbUsage b, .smbFru b k,
      .alertResponseRead, .smbusTimeout, .smbusWrite k], exec c s = .next s) ∧
    (∀ p a b, smbServes s = false → exec (.smbTemperature p a b) s = .next s) ∧
    (smbServes s = true → ∀ p : Option Byte,
      let fits (req : List Byte) := p = none ∨ p = some (pec (wr :: req))
      let nack := Host.Outcome.next (emit s .smbNack)
      (fits [1] → ∃ d, exec (.smbIdentity p) s = .next (reply [1] d) ∧ d.length = 8 ∧
        d.getD 0 0 = (match s.variant with | .wx7480 => 0x80 | .wx7440 => 0x40) ∧
        d.getD 1 0 = (if s.suffixE then 0x45 else 0x43) ∧ d.getD 2 0 = BitVec.ofNat 8 (lcState s).code ∧
        d.getD 3 0 = BitVec.ofNat 8 s.lcf.stage ∧ fieldAt d 4 2 = s.lcf.failure % 65536 ∧
        d.getD 6 0 = BitVec.ofNat 8 s.prl.state.code ∧ d.getD 7 0 = BitVec.ofNat 8 s.pwr.effective) ∧
      (fits [2] → ∀ v a, ∃ d, exec (.smbPower p v a) s = .next (reply [2] d) ∧ d.length = 6 ∧ fieldAt d 0 2 = v % 65536 ∧
        fieldAt d 2 2 = a % 65536 ∧ fieldAt d 4 2 = s.pwr.inputDw % 65536) ∧
      (fits [3] → ∀ a b, ∃ d, exec (.smbTemperature p a b) s = .next (reply [3] d) ∧ d.length = 4 ∧
        d.getD 0 0 = BitVec.ofInt 8 a ∧ d.getD 1 0 = BitVec.ofInt 8 b ∧ d.getD 2 0 = BitVec.ofInt 8 s.bin.temp ∧
        d.getD 3 0 = 0) ∧
      (fits [4] → ∀ e, ∃ d, exec (.smbCell p e) s = .next (reply [4] d) ∧ d.length = 4 ∧
        fieldAt d 0 2 = s.bin.vbat % 65536 ∧ (d.getD 2 0).getLsbD 0 = (sourceOf s 13).active ∧
        (d.getD 2 0).getLsbD 1 = e) ∧
      (fits [5] → ∃ d, exec (.smbUsage p) s = .next (reply [5] d) ∧ d.length = 6 ∧
        fieldAt d 0 3 = s.log.optime / 3600 % 2 ^ 24 ∧ fieldAt d 3 3 = s.bin.cycles % 2 ^ 24) ∧
      (∀ k < 32, fits [0x10, 1, BitVec.ofNat 8 k] →
        exec (.smbFru p k) s = .next (reply [0x10, 1, BitVec.ofNat 8 k] (fruBytes s k))) ∧
      (∀ k, 32 ≤ k → exec (.smbFru p k) s = nack) ∧
      (¬ fits [1] → exec (.smbIdentity p) s = nack) ∧ (¬ fits [2] → ∀ x y, exec (.smbPower p x y) s = nack) ∧
      (¬ fits [3] → ∀ a b, exec (.smbTemperature p a b) s = nack) ∧ (¬ fits [4] → ∀ e, exec (.smbCell p e) s = nack) ∧
      (¬ fits [5] → exec (.smbUsage p) s = nack) ∧
      (∀ k < 32, ¬ fits [0x10, 1, BitVec.ofNat 8 k] → exec (.smbFru p k) s = nack) ∧
      (∀ k, exec (.smbusWrite k) s = nack) ∧
      (s.smb.alert = true → ∃ t, exec .alertResponseRead s = .next t ∧ t.smb = { s.smb with alert := false } ∧
        t.out = s.out ++ [.smb [wr, pec [0x19, wr]]]) ∧
      (s.smb.alert = false → exec .alertResponseRead s = .next s) ∧
      exec .smbusTimeout s = .next s)

/-! ### Chapter 04 as a whole, memory, and reset -/

/-- R155 to R159, R161, R163, R165, R207, Tables 4.1 to 4.10: every operation that has an encoding decodes from it, with every
operand at every value that the encoding holds and whatever words follow, and no other words decode to it: one or two words
below 2^32 that decode to an operation are its encoding. -/
def Obligations.DecodeAndEncodeAgree : Prop :=
  (∀ (op : Op) (rest : List Nat), op.wf = true →
    decodeWords (encode op ++ rest) = .op op (encode op).length ∧ ∀ x ∈ encode op, x < 2 ^ 32) ∧
  (∀ (op : Op) (x : Nat) (rest : List Nat), x < 2 ^ 32 → decodeWords (x :: rest) = .op op 1 →
    op.wf = true ∧ encode op = [x]) ∧
  ∀ (op : Op) (x y : Nat) (rest : List Nat), x < 2 ^ 32 → y < 2 ^ 32 → decodeWords (x :: y :: rest) = .op op 2 →
    op.wf = true ∧ encode op = [x, y]

/-- Chapters 03, 06 and 21: no step breaks the form of a memory: whatever command stands in front, the LDM of every core, the
LDM that every continuation carries and every crew's scratch stay canonical, so that equal memories are equal data. -/
def Obligations.MemoriesStayCanonical : Prop :=
  ∀ (s t : State), Canonical s → step s = .next t → Canonical t

/-- Tables 2.5 to 2.8, 9.17, 20.9 and 20.10, R762: the state after reset has canonical memories, no command waiting, no chain,
no session, no key in the cache and no fence, and configuration registers read their stated reset values, an offset that no
register has 0. Memories that hold zeros, and the empty queue, are the model's choice (logs 1, 4 and 10). -/
def Obligations.ResetLeavesTheStatedValues : Prop :=
  let s := State.reset
  Canonical s ∧ s.pending = [] ∧ (∀ c, (s.core c).item = none) ∧ s.net.sessions = [] ∧ s.ksc.cache = [] ∧
    s.prl.fence = false ∧ s.lcf.stage = 0 ∧
    (readReg s 0x00010000).1 = 0x00010100 ∧ (readReg s 0x00010004).1 = 0xC ∧ (readReg s 0x0001000C).1 = 4 ∧
    (readReg s 0x0001001C).1 = 1000000 ∧ (readReg s 0x00010020).1 = 250 ∧ (readReg s 0x00010024).1 = 40 ∧
    (readReg s 0x0013000C).1 = 300 ∧ (readReg s 0x00110800).1 = 0x1000 ∧ (readReg s 0x00140010).1 = 0xC00 ∧
    ∀ a, regDef a = none → readReg s a = (0, s)
end

