-- ==== Sys2Proof/Laws/Base.lean ====
section
/-! SUPPORT. What the operations that every block uses can do: vectors and association lists, counters and the Log,
register bits, outputs, tickets. -/

namespace Sys2Proof.Machine

/-! ### Vectors and association lists -/

@[simp] theorem vget_vset_same {α : Type} {n : Nat} (v : Vector α n) (i : Nat) (x d : α) (h : i < n) :
    vget (vset v i x) i d = x := by
  simp [vget, vset, h]

theorem vget_vset_ne {α : Type} {n : Nat} (v : Vector α n) (i k : Nat) (x d : α) (h : k ≠ i) :
    vget (vset v i x) k d = vget v k d := by
  unfold vget vset
  by_cases hk : k < n <;> by_cases hi : i < n <;> simp [hk, hi, Ne.symm h]

/-- Beyond the end nothing is read and nothing is written. -/
theorem vget_big {α : Type} {n : Nat} (v : Vector α n) (i : Nat) (d : α) (h : n ≤ i) : vget v i d = d := by
  simp [vget, Nat.not_lt.mpr h]

theorem vset_big {α : Type} {n : Nat} (v : Vector α n) (i : Nat) (x : α) (h : n ≤ i) : vset v i x = v := by
  simp [vset, Nat.not_lt.mpr h]

/-- An entry that differs from the default lies within the vector. -/
theorem lt_of_vget_ne {α : Type} {n : Nat} (v : Vector α n) (i : Nat) (d : α) (h : vget v i d ≠ d) : i < n := by
  by_cases hi : i < n
  · exact hi
  · exact absurd (vget_big v i d (Nat.not_lt.mp hi)) h

@[simp] theorem alGet_alSet_same {α β : Type} [DecidableEq α] (l : List (α × β)) (a : α) (b : β) :
    alGet (alSet l a b) a = some b := by
  induction l with
  | nil => simp [alSet, alGet]
  | cons p l ih => obtain ⟨k, v⟩ := p; by_cases h : k = a <;> simp [alSet, alGet, h, ih]

theorem alGet_alSet_ne {α β : Type} [DecidableEq α] (l : List (α × β)) (a k : α) (b : β) (h : k ≠ a) :
    alGet (alSet l a b) k = alGet l k := by
  induction l with
  | nil => simp [alSet, alGet, Ne.symm h]
  | cons p l ih =>
    obtain ⟨q, v⟩ := p
    by_cases hq : q = a
    · subst hq; simp [alSet, alGet, Ne.symm h]
    · by_cases hk : q = k
      · subst hk; simp [alSet, alGet, h]
      · simp [alSet, alGet, hq, hk, ih]

/-! ### The Log and the counters change nothing else -/

theorem ringAppend_log (s : State) (r : LogRec) : ∃ l, ringAppend s r = { s with log := l } := by
  unfold ringAppend troubleMod; split <;> exact ⟨_, rfl⟩

theorem logFull_log (s : State) (e b v : Nat) (i : Bool) (g : Nat) (p : List Nat) (x : Bool) :
    ∃ l, logFull s e b v i g p x = { s with log := l } := by
  unfold logFull
  simp only
  split
  · exact ringAppend_log s _
  · split
    · split <;> exact ⟨_, rfl⟩
    · exact ⟨_, rfl⟩

theorem logEvent_log (s : State) (e b v : Nat) (p : List Nat) : ∃ l, logEvent s e b v p = { s with log := l } :=
  logFull_log s e b v false 0 p false

theorem logOpen_log (s : State) (b p : Nat) (l : List Nat) : ∃ g, logOpen s b p l = { s with log := g } :=
  logFull_log s _ b _ false 0 l false

theorem trouble_log (s : State) (i c : Nat) : ∃ l, trouble s i c = { s with log := l } := ⟨_, rfl⟩

theorem troubleMod_log (s : State) (c : Nat) : ∃ l, troubleMod s c = { s with log := l } := ⟨_, rfl⟩

theorem countStatus_log (s : State) (i : Option Nat) (st : Nat) : ∃ l, countStatus s i st = { s with log := l } := by
  unfold countStatus
  split
  · split
    · exact trouble_log _ _ _
    · exact troubleMod_log _ _
  · exact troubleMod_log _ _
  · exact ⟨s.log, rfl⟩

/-! ### Registers -/

theorem setBit_regs (s : State) (a i : Nat) (b : Bool) : ∃ r, setBit s a i b = { s with regs := r } := ⟨_, rfl⟩

theorem setFld_regs (s : State) (a lo n v : Nat) : ∃ r, setFld s a lo n v = { s with regs := r } := ⟨_, rfl⟩

/-! ### Chains -/

theorem core_map (s : State) (f : Core → Core) (c : CoreId) : State.core { s with cores := s.cores.map f } c = f (s.core c) := by
  show (s.cores.map f)[c.val] = f s.cores[c.val]
  simp

/-- A change of a chain reaches the core it runs on. -/
theorem mapChain_core (s : State) (n : Nat) (f : Item → Item) (c : CoreId) :
    (mapChain s n f).core c =
      { s.core c with item := (s.core c).item.map fun x => if x.serial = n then f x else x } :=
  core_map s _ c

end Sys2Proof.Machine
end

