-- ==== Sys2Proof/Laws/Core.lean ====
section
/-! SUPPORT. Lemmas about one instruction on one core: what `runOp` answers when the instruction may issue, and how the
core moves on. -/

namespace Sys2Proof.Machine

open Sys2Proof.Claims

@[simp] theorem core_setCore_same (s : State) (c : CoreId) (x : Core) : (s.setCore c x).core c = x := by
  show (s.cores.set c.val x c.isLt)[c.val] = x
  simp

theorem core_setCore_ne (s : State) (c d : CoreId) (x : Core) (h : d ≠ c) : (s.setCore c x).core d = s.core d := by
  have h' : c.val ≠ d.val := fun e => h (Fin.ext e.symm)
  show (s.cores.set c.val x c.isLt)[d.val] = s.cores[d.val]
  simp [h']

theorem setCore_blocks (s : State) (c : CoreId) (x : Core) : s.setCore c x = { s with cores := (s.setCore c x).cores } := rfl

/-- What readable memory meets changes the memory controller alone. -/
theorem memMeets_readable (s : State) (m : MemEvent) (h : MemEvent.readable m = true) :
    ∃ e, memMeets s m = { s with mec := e } := by
  cases m <;> first
    | exact ⟨s.mec, rfl⟩
    | exact ⟨_, rfl⟩
    | cases h

@[simp] theorem memMeets_core (s : State) (m : MemEvent) (h : MemEvent.readable m = true) (c : CoreId) :
    (memMeets s m).core c = s.core c := by
  obtain ⟨e, he⟩ := memMeets_readable s m h
  rw [he]; rfl

/-- A fetch that returns data changes the memory controller and the crew's program cache alone (R151). -/
theorem fetched_changes (s : State) (i : Issue) (h : MemEvent.readable (fetchEvent s i) = true) :
    ∃ e k, memMeets s (fetchEvent s i) = { s with mec := e } ∧
      fetched s i = { s with mec := e, pcache := vset s.pcache (crewOf i.core) k } := by
  obtain ⟨e, he⟩ := memMeets_readable s _ h
  refine ⟨e, (fetchLines s i.core).foldl (fillLine (pinsOf (cfgV s))) (vget s.pcache (crewOf i.core) {}), he, ?_⟩
  unfold fetched progMeets
  rw [show progEvent s (crewOf i.core) (fetchLines s i.core) i.fetch = fetchEvent s i from rfl, he]
  rfl

theorem fetched_core {s : State} {i : Issue} (h : MemEvent.readable (fetchEvent s i) = true) (c : CoreId) :
    (fetched s i).core c = s.core c := by
  obtain ⟨e, k, _, hf⟩ := fetched_changes s i h
  rw [hf]; rfl

/-- An instruction that may issue and completes: its effect, its cycles, and the core moves on. -/
theorem runOp_next {s : State} {i : Issue} {op : Op} {x : Item} {len : Nat} {act : State → Item → Nat → Effect} {d : Done}
    (h : CoreReady s i op x len) (ha : act (issueSt s i) x len = .next d) :
    runOp i op s act =
      leave (addCycles d.s i.core (1 + sourceStall (s.core i.core) op + b2n (Op.prefixed op) + d.extra) (Op.sources op) d.late) i.core len
        d.flow := by
  obtain ⟨hi, hb, hf, hd, hs, hk⟩ := h
  have h1 : (Op.sources op).any (pendingReg (s.core i.core)) = false := by
    rw [List.any_eq_false]; intro r hr; simp [hs r hr]
  have h2 : (Op.handles op).any (pendingKey (s.core i.core)) = false := by
    rw [List.any_eq_false]; intro r hr; simp [hk r hr]
  unfold issueSt at ha
  simp [runOp, hi, Nat.not_le.mpr hb, hf, hd, h1, h2, ha]

/-- The core in the state in which an instruction acts: the stroke is counted. -/
theorem issueSt_core {s : State} {i : Issue} {op : Op} {x : Item} {len : Nat} (h : CoreReady s i op x len) :
    (issueSt s i).core i.core = { s.core i.core with item := some { x with strokes := x.strokes + 1 } } := by
  obtain ⟨hi, _, hf, _⟩ := h
  have hc := fetched_core hf i.core
  simp [issueSt, stroke, modItem, hc, hi]

/-- The other cores stand as they were. -/
theorem issueSt_others {s : State} {i : Issue} {op : Op} {x : Item} {len : Nat} (h : CoreReady s i op x len) (c : CoreId)
    (hc : c ≠ i.core) : (issueSt s i).core c = s.core c := by
  obtain ⟨_, _, hf, _⟩ := h
  simp [issueSt, stroke, modItem, core_setCore_ne _ _ _ _ hc, fetched_core hf]

/-- An instruction that acts has changed its core, what its fetch met, and its crew's program cache. -/
theorem issueSt_blocks {s : State} {i : Issue} (h : MemEvent.readable (fetchEvent s i) = true) :
    issueSt s i = { memMeets s (fetchEvent s i) with cores := (issueSt s i).cores, pcache := (issueSt s i).pcache } ∧
      ∀ k, k ≠ crewOf i.core → vget (issueSt s i).pcache k {} = vget s.pcache k {} := by
  obtain ⟨e, k, he, hf⟩ := fetched_changes s i h
  constructor
  · rw [he]
    unfold issueSt stroke modItem State.setCore
    rw [hf]
  · intro n hn
    show vget (fetched s i).pcache n {} = _
    rw [hf]
    exact vget_vset_ne _ _ _ _ _ hn

/-- A core whose next instruction lies in the code moves on without a fault (R188). -/
theorem moveTo_inCode {u : State} {c : CoreId} {x : Item} {pc : Nat} {l : Option Loop} (hx : (u.core c).item = some x)
    (hpc : pc < x.code.length) : moveTo u c pc l = modCtx u c fun k => { k with pc := pc, loop := l } := by
  have h2 : ((modCtx u c fun k => { k with pc := pc, loop := l }).core c).item = some x := by simp [modCtx, hx]
  simp only [moveTo, h2]
  rw [if_neg (by omega)]

/-- Writing one register of a context. -/
theorem Ctx.rg_wg (k : Ctx) (d r : GReg) (v : Word) :
    (k.wg d v).rg r = if r = 0 then 0 else if r = d then v else k.rg r := by
  unfold Ctx.wg Ctx.rg
  by_cases hr : r = 0
  · simp [hr]
  · by_cases hd : d = 0
    · have : r ≠ d := fun e => hr (e.trans hd)
      simp [hr, hd]
    · by_cases h : r = d
      · subst h; simp [hr, Vector.get]
      · have h' : d.val ≠ r.val := fun e => h (Fin.ext e.symm)
        simp only [hd, hr, h, if_false, Vector.get]
        show (k.g.set d.val v d.isLt)[r.val] = k.g[r.val]
        simp [h']

/-- The core after a register write with its cycles counted. -/
theorem addCycles_wr_core (u : State) (c : CoreId) (x : Item) (d : GReg) (v : Word) (n : Nat) (r : List GReg) (late : Late)
    (hx : (u.core c).item = some x) :
    ∃ p q a l, (addCycles (wr u c d v) c n r late).core c =
      { u.core c with
        ctx := (u.core c).ctx.wg d v, pendG := p, pendK := q, cycles := (u.core c).cycles + n, avail := a, scrLate := l } := by
  simp [addCycles, wr, hx, supersede]

theorem addCycles_wr_others (u : State) (c e : CoreId) (d : GReg) (v : Word) (n : Nat) (r : List GReg) (late : Late)
    (he : e ≠ c) : (addCycles (wr u c d v) c n r late).core e = u.core e := by
  unfold addCycles wr
  simp only [core_setCore_same]
  split <;> simp [core_setCore_ne _ _ _ _ he]

theorem addCycles_wr_blocks (u : State) (c : CoreId) (d : GReg) (v : Word) (n : Nat) (r : List GReg) (late : Late) :
    addCycles (wr u c d v) c n r late = { u with cores := (addCycles (wr u c d v) c n r late).cores } := by
  unfold addCycles wr
  simp only [core_setCore_same]
  split <;> rfl

/-- An instruction that writes `v` to `d` and stays in the code retires. -/
theorem retires_of_wr {s : State} {i : Issue} {op : Op} {x : Item} {len : Nat} (d : GReg) (v : Word) (n : Nat)
    (r : List GReg) (late : Late) (h : CoreReady s i op x len) (hin : StaysInCode s i x len) :
    Retires s (leave (addCycles (wr (issueSt s i) i.core d v) i.core n r late) i.core len .seq) i x len d v := by
  have h1 := issueSt_core h
  have hx : ((issueSt s i).core i.core).item = some { x with strokes := x.strokes + 1 } := by rw [h1]
  obtain ⟨p, q, a, m, hc⟩ := addCycles_wr_core (issueSt s i) i.core _ d v n r late hx
  have ho := fun e he => addCycles_wr_others (issueSt s i) i.core e d v n r late he
  have hb := addCycles_wr_blocks (issueSt s i) i.core d v n r late
  have ⟨hi, hp⟩ := issueSt_blocks h.2.2.1
  generalize addCycles (wr (issueSt s i) i.core d v) i.core n r late = u at hc ho hb
  rw [h1] at hc
  have hseq : seqNext (u.core i.core).ctx len = seqNext (s.core i.core).ctx len := by
    rw [hc]; show seqNext ((s.core i.core).ctx.wg d v) len = _
    unfold Ctx.wg; split <;> rfl
  have hu : (u.core i.core).item = some { x with strokes := x.strokes + 1 } := by rw [hc]
  have hl : leave u i.core len .seq = modCtx u i.core fun k =>
      { k with pc := (seqNext (s.core i.core).ctx len).1, loop := (seqNext (s.core i.core).ctx len).2 } := by
    simp only [leave, hseq]
    exact moveTo_inCode hu hin
  rw [hl]
  let f : Ctx → Ctx := fun k =>
    { k with pc := (seqNext (s.core i.core).ctx len).1, loop := (seqNext (s.core i.core).ctx len).2 }
  show Retires s (modCtx u i.core f) i x len d v
  have hk : (modCtx u i.core f).core i.core = { u.core i.core with ctx := f (u.core i.core).ctx } := by simp [modCtx]
  have hrd : ∀ r, rd (modCtx u i.core f) i.core r = ((s.core i.core).ctx.wg d v).rg r := by
    intro r; rw [rd, hk, hc]; rfl
  refine ⟨⟨?_, ?_, ?_, ?_, ?_⟩, ?_, ?_, ?_, ?_, ?_, ?_, ?_, ?_⟩
  · show _ = _
    unfold modCtx
    conv => lhs; rw [hb, hi]
    rw [hb]
    rfl
  · intro n hn
    show vget u.pcache n {} = _
    rw [hb]
    exact hp n hn
  · intro e he
    simp [modCtx, core_setCore_ne _ _ _ _ he, ho e he, issueSt_others h e he]
  · rw [hk]; exact hu
  · rw [hk, hc]
  · intro hd; rw [hrd, Ctx.rg_wg]; simp [hd]
  · rw [hrd, Ctx.rg_wg]; simp
  · intro r hr
    rw [hrd, Ctx.rg_wg, rd]
    by_cases h0 : r = 0
    · subst h0; rfl
    · simp [h0, hr]
  · rw [hk, hc]; show ((s.core i.core).ctx.wg d v).k = _; unfold Ctx.wg; split <;> rfl
  · rw [hk, hc]; show ((s.core i.core).ctx.wg d v).stack = _; unfold Ctx.wg; split <;> rfl
  · rw [hk, hc]
  · rw [hk]
  · rw [hk]

end Sys2Proof.Machine
end

