-- ==== Sys2Proof/Laws/Crypt.lean ====
section
/-! SUPPORT. What protection gives: the length of a primitive's output, and that GCM opens what it sealed, so that a frame
sealed under a generation's keys verifies under that generation (R553, R555). -/

namespace Sys2Proof.Machine

@[simp] theorem cryptoBytes_length (p : Prim) (l : List (List Byte)) (n : Nat) : (cryptoBytes p l n).length = n := by
  simp [cryptoBytes]

@[simp] theorem leBytes_length : ∀ (n v : Nat), (leBytes n v).length = n
  | 0, _ => rfl
  | n + 1, v => by simp [leBytes, leBytes_length n]

@[simp] theorem xorBytes_length (a b : List Byte) : (xorBytes a b).length = min a.length b.length := by
  simp [xorBytes]

/-- XOR with the same bytes twice gives back what was there. -/
theorem xorBytes_cancel : ∀ (a b : List Byte), a.length ≤ b.length → xorBytes (xorBytes a b) b = a
  | [], _, _ => by simp [xorBytes]
  | _ :: _, [], h => by simp at h
  | x :: a, y :: b, h => by
    have e := xorBytes_cancel a b (by simpa using h)
    simp only [xorBytes] at e
    simp [xorBytes, e, BitVec.xor_assoc]

@[simp] theorem gcmStream_length (k : List (List Byte)) (iv : List Byte) (c n : Nat) :
    (gcmStream k iv c n).length = n * 16 := by
  simp [gcmStream, encBlock, List.length_flatMap, List.map_const']

theorem gcmText_length (k : List (List Byte)) (iv b : List Byte) : (gcmText k iv b).length = b.length := by
  simp only [gcmText, xorBytes_length, gcmStream_length, ceilDiv]
  omega

/-- The key stream takes itself away. -/
theorem gcmText_gcmText (k : List (List Byte)) (iv b : List Byte) : gcmText k iv (gcmText k iv b) = b := by
  have h := gcmText_length k iv b
  unfold gcmText at h ⊢
  rw [h]
  exact xorBytes_cancel _ _ (by simp only [gcmStream_length, ceilDiv]; omega)

theorem gcmTag_length (k : List (List Byte)) (iv aad ct : List Byte) : (gcmTag k iv aad ct).length = 16 := by
  simp [gcmTag, beBytes]

/-- GCM opens what it sealed. -/
theorem gcmOpen_gcmSeal (k iv aad pt : List Byte) :
    gcmOpen k iv aad (gcmSeal k iv aad pt).1 (gcmSeal k iv aad pt).2 = some pt := by
  simp [gcmOpen, gcmSeal, gcmText_gcmText]

theorem openBody_sealBody (keys : List Byte) (m : Bool) (h : FrameHdr) (body : List Byte) :
    openBody keys m h (sealBody keys m h body).1 (sealBody keys m h body).2 = some body :=
  gcmOpen_gcmSeal ..

theorem sealBody_length (keys : List Byte) (m : Bool) (h : FrameHdr) (body : List Byte) :
    (sealBody keys m h body).1.length = body.length ∧ (sealBody keys m h body).2.length = 16 :=
  ⟨gcmText_length .., gcmTag_length ..⟩

/-- A body sealed under the keys of the first generation tried verifies under it. -/
theorem verifies_sealed {x : Session} {f : Frame} {g : Nat} {rest : List Nat} {keys body : List Byte}
    (hg : tryGens x f = g :: rest) (hk : keysFor x g = some keys)
    (hf : (f.body, f.tag) = sealBody keys true f.hdr body) : verifies x f = some (g, { f with body := body }) := by
  obtain ⟨hb, ht⟩ := Prod.ext_iff.mp hf
  simp only at hb ht
  simp [verifies, hg, hk, hb, ht, openBody_sealBody]

end Sys2Proof.Machine
end

