-- ==== Sys2Proof/Laws/Memory.lean ====
section
/-! SUPPORT. Sparse memories: every operation keeps the canonical form, a read after a write to the same place gives what was
written, and a write leaves every other place as it was. -/

namespace Sys2Proof.Machine

/-! ### Canonical form -/

theorem Mem.wfFrom_mono {lo hi : Nat} (h : lo ≤ hi) : ∀ {m : Memory}, Mem.wfFrom hi m = true → Mem.wfFrom lo m = true
  | [], _ => rfl
  | (k, v) :: m, w => by
    simp only [Mem.wfFrom, Bool.and_eq_true, decide_eq_true_eq] at w ⊢
    exact ⟨⟨Nat.le_trans h w.1.1, w.1.2⟩, w.2⟩

theorem Mem.wfFrom_set (a : Nat) (b : Byte) :
    ∀ {lo : Nat} {m : Memory}, lo ≤ a → Mem.wfFrom lo m = true → Mem.wfFrom lo (Mem.set m a b) = true
  | lo, [], ha, _ => by
    unfold Mem.set; split <;> simp_all [Mem.wfFrom]
  | lo, (k, v) :: m, ha, w => by
    simp only [Mem.wfFrom, Bool.and_eq_true, decide_eq_true_eq, bne_iff_ne] at w
    obtain ⟨⟨hk, hv⟩, hm⟩ := w
    have hv : ¬v = 0#8 := hv
    unfold Mem.set
    split
    · split
      · simp [Mem.wfFrom, hk, hv, hm]
      · simp_all [Mem.wfFrom] <;> omega
    · split
      · split
        · exact Mem.wfFrom_mono (by omega) hm
        · simp_all [Mem.wfFrom]
      · simp only [Mem.wfFrom, Bool.and_eq_true, decide_eq_true_eq]
        exact ⟨⟨hk, by simp [hv]⟩, Mem.wfFrom_set a b (by omega) hm⟩

/-- A store of one byte keeps the canonical form. -/
theorem Mem.wf_set {m : Memory} (a : Nat) (b : Byte) (h : Mem.wf m = true) : Mem.wf (Mem.set m a b) = true :=
  Mem.wfFrom_set a b (Nat.zero_le a) h

/-- A store of a byte string keeps the canonical form. -/
theorem Mem.wf_write : ∀ (bs : List Byte) {m : Memory} (a : Nat), Mem.wf m = true → Mem.wf (Mem.write m a bs) = true
  | [], _, _, h => h
  | b :: bs, _, a, h => Mem.wf_write bs (a + 1) (Mem.wf_set a b h)

/-- Several stores keep the canonical form. -/
theorem Mem.wf_writes : ∀ (l : List (Nat × List Byte)) {m : Memory}, Mem.wf m = true →
    Mem.wf (l.foldl (fun m w => Mem.write m w.1 w.2) m) = true
  | [], _, h => h
  | w :: l, _, h => Mem.wf_writes l (Mem.wf_write w.2 w.1 h)

theorem Mem.wfFrom_filter (p : Nat × Byte → Bool) :
    ∀ {lo : Nat} {m : Memory}, Mem.wfFrom lo m = true → Mem.wfFrom lo (m.filter p) = true
  | _, [], _ => rfl
  | lo, (k, v) :: m, w => by
    simp only [Mem.wfFrom, Bool.and_eq_true, decide_eq_true_eq, bne_iff_ne] at w
    obtain ⟨⟨hk, hv⟩, hm⟩ := w
    have hv : ¬v = 0#8 := hv
    have ih := Mem.wfFrom_filter p hm
    simp only [List.filter]
    split
    · simp [Mem.wfFrom, hk, hv, ih]
    · exact Mem.wfFrom_mono (by omega) ih

/-- Cutting a memory off keeps the canonical form. -/
theorem Mem.wf_keepBelow {m : Memory} (c : Nat) (h : Mem.wf m = true) : Mem.wf (Mem.keepBelow m c) = true :=
  Mem.wfFrom_filter _ h

/-! ### Reads -/

/-- Below its first entry a memory reads zero. -/
theorem Mem.get_below : ∀ {m : Memory} {lo a : Nat}, Mem.wfFrom lo m = true → a < lo → Mem.get m a = 0
  | [], _, _, _, _ => rfl
  | (k, v) :: m, lo, a, w, h => by
    simp only [Mem.wfFrom, Bool.and_eq_true, decide_eq_true_eq] at w
    have : k ≠ a := by omega
    simp [Mem.get, this, show a < k by omega]

theorem Mem.get_setFrom (a : Nat) (b : Byte) (c : Nat) :
    ∀ {lo : Nat} {m : Memory}, Mem.wfFrom lo m = true → Mem.get (Mem.set m a b) c = if c = a then b else Mem.get m c
  | _, [], _ => by
    unfold Mem.set
    by_cases hb : b = 0#8 <;> by_cases hc : c = a
    · simp [hb, hc, Mem.get]
    · simp [hb, hc]
    · simp [hb, hc, Mem.get]
    · simp [hb, hc, Mem.get, Ne.symm hc]
  | lo, (k, v) :: m, w => by
    simp only [Mem.wfFrom, Bool.and_eq_true, decide_eq_true_eq, bne_iff_ne] at w
    obtain ⟨⟨hk, hv⟩, hm⟩ := w
    have hv : ¬v = 0#8 := hv
    have hz : ∀ d, d ≤ k → Mem.get m d = 0 := fun d hd => Mem.get_below hm (by omega)
    unfold Mem.set
    by_cases h1 : a < k
    · by_cases hb : b = 0#8
      · by_cases hc : c = a
        · simp [h1, hb, hc, Mem.get, show k ≠ a by omega]
        · simp [h1, hb, hc]
      · by_cases hc : c = a
        · subst hc; simp [h1, hb, Mem.get]
        · by_cases h2 : c < a
          · simp [h1, hb, hc, Mem.get, Ne.symm hc, h2, show k ≠ c by omega, show c < k by omega]
          · simp [h1, hb, hc, Mem.get, Ne.symm hc, h2]
    · by_cases h2 : a = k
      · subst h2
        by_cases hb : b = 0#8
        · by_cases hc : c = a
          · subst hc; simp [hb, hz c (Nat.le_refl c)]
          · by_cases h3 : c < a
            · simp [hb, hc, Mem.get, Ne.symm hc, h3, hz c (by omega)]
            · simp [hb, hc, Mem.get, Ne.symm hc, h3]
        · by_cases hc : c = a
          · subst hc; simp [hb, Mem.get]
          · simp [hb, hc, Mem.get, Ne.symm hc]
      · have ih := Mem.get_setFrom a b c hm
        simp only [h1, h2, if_false, Mem.get, ih]
        by_cases hc : c = a
        · subst hc; simp [Ne.symm h2, h1]
        · simp [hc]

/-- A read after a store: the stored byte at its place, any other as before. -/
theorem Mem.get_set {m : Memory} (h : Mem.wf m = true) (a : Nat) (b : Byte) (c : Nat) :
    Mem.get (Mem.set m a b) c = if c = a then b else Mem.get m c :=
  Mem.get_setFrom a b c h

/-- A read after a store of a byte string. -/
theorem Mem.get_write : ∀ (bs : List Byte) {m : Memory} (a c : Nat), Mem.wf m = true →
    Mem.get (Mem.write m a bs) c = if a ≤ c ∧ c < a + bs.length then bs.getD (c - a) 0 else Mem.get m c
  | [], m, a, c, _ => by
    simp only [Mem.write, List.length_nil]
    rw [if_neg (by omega)]
  | b :: bs, m, a, c, h => by
    rw [Mem.write, Mem.get_write bs (a + 1) c (Mem.wf_set a b h), Mem.get_set h]
    by_cases hc : c = a
    · subst hc
      rw [if_neg (by omega), if_pos rfl, if_pos (by simp only [List.length_cons]; omega), Nat.sub_self]
      rfl
    · by_cases hr : a + 1 ≤ c ∧ c < a + 1 + bs.length
      · have : c - a = (c - (a + 1)) + 1 := by omega
        rw [if_pos hr, if_pos (by simp only [List.length_cons]; omega), this]
        simp
      · rw [if_neg hr, if_neg hc, if_neg (by simp only [List.length_cons]; omega)]

/-- A store leaves the places outside it as they were. -/
theorem Mem.get_write_out {m : Memory} (bs : List Byte) (a c : Nat) (h : Mem.wf m = true)
    (hc : c < a ∨ a + bs.length ≤ c) : Mem.get (Mem.write m a bs) c = Mem.get m c := by
  rw [Mem.get_write bs a c h, if_neg (by omega)]

@[simp] theorem Mem.read_length (m : Memory) : ∀ (n a : Nat), (Mem.read m a n).length = n
  | 0, _ => rfl
  | n + 1, a => by simp [Mem.read, Mem.read_length m n (a + 1)]

theorem Mem.read_getD (m : Memory) : ∀ (n a i : Nat), i < n → (Mem.read m a n).getD i 0 = Mem.get m (a + i)
  | n + 1, a, 0, _ => rfl
  | n + 1, a, i + 1, h => by
    have := Mem.read_getD m n (a + 1) i (by omega)
    simp only [Mem.read, List.getD_cons_succ, this]
    congr 1; omega

/-- What was written is read back. -/
theorem Mem.read_write {m : Memory} (bs : List Byte) (a : Nat) (h : Mem.wf m = true) :
    Mem.read (Mem.write m a bs) a bs.length = bs := by
  apply List.ext_getElem (by simp)
  intro i h1 h2
  have := Mem.read_getD (Mem.write m a bs) bs.length a i h2
  rw [Mem.get_write bs a (a + i) h, if_pos (by omega), Nat.add_sub_cancel_left] at this
  simpa [List.getD_eq_getElem?_getD, h2] using this

theorem Mem.get_keepBelow (b c : Nat) :
    ∀ {lo : Nat} {m : Memory}, Mem.wfFrom lo m = true → Mem.get (Mem.keepBelow m b) c = if c < b then Mem.get m c else 0
  | _, [], _ => by simp [Mem.keepBelow, Mem.get]
  | lo, (k, v) :: m, w => by
    simp only [Mem.wfFrom, Bool.and_eq_true, decide_eq_true_eq] at w
    have ih := Mem.get_keepBelow b c w.2
    unfold Mem.keepBelow at ih ⊢
    by_cases hk : k < b
    · simp only [List.filter, hk, decide_true, Mem.get, ih]
      by_cases h1 : k = c
      · subst h1; simp [hk]
      · by_cases h2 : c < k
        · simp [h1, h2]
        · simp [h1, h2]
    · simp only [List.filter, hk, decide_false, ih, Mem.get]
      by_cases hc : c < b
      · have hz : Mem.get m c = 0 := Mem.get_below w.2 (by omega)
        simp [hc, show k ≠ c by omega, show c < k by omega, hz]
      · simp [hc]

/-- Memories in canonical form that read the same are the same. -/
theorem Mem.ext_from : ∀ {lo : Nat} {m n : Memory}, Mem.wfFrom lo m = true → Mem.wfFrom lo n = true →
    (∀ a, Mem.get m a = Mem.get n a) → m = n
  | _, [], [], _, _, _ => rfl
  | _, [], (k, v) :: n, _, w, h => by
    simp only [Mem.wfFrom, Bool.and_eq_true, decide_eq_true_eq, bne_iff_ne] at w
    have := h k; simp [Mem.get] at this; exact absurd this.symm w.1.2
  | _, (k, v) :: m, [], w, _, h => by
    simp only [Mem.wfFrom, Bool.and_eq_true, decide_eq_true_eq, bne_iff_ne] at w
    have := h k; simp [Mem.get] at this; exact absurd this w.1.2
  | _, (k, v) :: m, (j, x) :: n, wm, wn, h => by
    simp only [Mem.wfFrom, Bool.and_eq_true, decide_eq_true_eq, bne_iff_ne] at wm wn
    have hkj : k = j := by
      rcases Nat.lt_trichotomy k j with hlt | he | hgt
      · have := h k; simp [Mem.get, show j ≠ k by omega, hlt] at this; exact absurd this wm.1.2
      · exact he
      · have := h j; simp [Mem.get, show k ≠ j by omega, hgt] at this; exact absurd this.symm wn.1.2
    subst hkj
    have hv : v = x := by have := h k; simpa [Mem.get] using this
    subst hv
    have : m = n := Mem.ext_from wm.2 wn.2 fun a => by
      by_cases ha : a ≤ k
      · rw [Mem.get_below wm.2 (by omega), Mem.get_below wn.2 (by omega)]
      · have := h a; simpa [Mem.get, show k ≠ a by omega, show ¬a < k by omega] using this
    rw [this]

theorem Mem.ext {m n : Memory} (hm : Mem.wf m = true) (hn : Mem.wf n = true) (h : ∀ a, Mem.get m a = Mem.get n a) : m = n :=
  Mem.ext_from hm hn h

end Sys2Proof.Machine
end

