-- ==== Sys2Proof/Laws/State.lean ====
section
/-! SUPPORT. What an update of one block leaves unchanged: one rewrite rule for every other field of the state (a
conjunction, of which `simp` makes one rule for each part), and what the updates do to their own field. -/

namespace Sys2Proof.Machine

@[simp] theorem emit_fields (s : State) (o : Out) :
    (emit s o).variant = s.variant ∧ (emit s o).suffixE = s.suffixE ∧ (emit s o).serial = s.serial ∧
    (emit s o).slotId = s.slotId ∧ (emit s o).pending = s.pending ∧ (emit s o).free = s.free ∧
    (emit s o).cores = s.cores ∧ (emit s o).scratch = s.scratch ∧ (emit s o).pcache = s.pcache ∧
    (emit s o).cph = s.cph ∧ (emit s o).hsh = s.hsh ∧ (emit s o).cvu = s.cvu ∧ (emit s o).cvctx = s.cvctx ∧
    (emit s o).bne = s.bne ∧ (emit s o).lte = s.lte ∧ (emit s o).dsp = s.dsp ∧ (emit s o).ins = s.ins ∧
    (emit s o).ksc = s.ksc ∧ (emit s o).mer = s.mer ∧ (emit s o).rng = s.rng ∧ (emit s o).net = s.net ∧
    (emit s o).prl = s.prl ∧ (emit s o).mec = s.mec ∧ (emit s o).apu = s.apu ∧ (emit s o).bin = s.bin ∧
    (emit s o).lcf = s.lcf ∧ (emit s o).dbg = s.dbg ∧ (emit s o).log = s.log ∧ (emit s o).pwr = s.pwr ∧
    (emit s o).drl = s.drl ∧ (emit s o).smb = s.smb ∧ (emit s o).qrm = s.qrm ∧ (emit s o).regs = s.regs ∧
    (emit s o).shadows = s.shadows ∧ (emit s o).stages = s.stages ∧ (emit s o).locked = s.locked :=
  ⟨rfl, rfl, rfl, rfl, rfl, rfl, rfl, rfl, rfl, rfl, rfl, rfl, rfl, rfl, rfl, rfl, rfl, rfl, rfl, rfl, rfl, rfl, rfl,
    rfl, rfl, rfl, rfl, rfl, rfl, rfl, rfl, rfl, rfl, rfl, rfl, rfl⟩

@[simp] theorem State.setCore_fields (s : State) (c : CoreId) (x : Core) :
    (s.setCore c x).variant = s.variant ∧ (s.setCore c x).suffixE = s.suffixE ∧ (s.setCore c x).serial = s.serial ∧
    (s.setCore c x).slotId = s.slotId ∧ (s.setCore c x).pending = s.pending ∧ (s.setCore c x).free = s.free ∧
    (s.setCore c x).out = s.out ∧ (s.setCore c x).scratch = s.scratch ∧ (s.setCore c x).pcache = s.pcache ∧
    (s.setCore c x).cph = s.cph ∧ (s.setCore c x).hsh = s.hsh ∧ (s.setCore c x).cvu = s.cvu ∧
    (s.setCore c x).cvctx = s.cvctx ∧ (s.setCore c x).bne = s.bne ∧ (s.setCore c x).lte = s.lte ∧
    (s.setCore c x).dsp = s.dsp ∧ (s.setCore c x).ins = s.ins ∧ (s.setCore c x).ksc = s.ksc ∧
    (s.setCore c x).mer = s.mer ∧ (s.setCore c x).rng = s.rng ∧ (s.setCore c x).net = s.net ∧
    (s.setCore c x).prl = s.prl ∧ (s.setCore c x).mec = s.mec ∧ (s.setCore c x).apu = s.apu ∧
    (s.setCore c x).bin = s.bin ∧ (s.setCore c x).lcf = s.lcf ∧ (s.setCore c x).dbg = s.dbg ∧
    (s.setCore c x).log = s.log ∧ (s.setCore c x).pwr = s.pwr ∧ (s.setCore c x).drl = s.drl ∧
    (s.setCore c x).smb = s.smb ∧ (s.setCore c x).qrm = s.qrm ∧ (s.setCore c x).regs = s.regs ∧
    (s.setCore c x).shadows = s.shadows ∧ (s.setCore c x).stages = s.stages ∧ (s.setCore c x).locked = s.locked :=
  ⟨rfl, rfl, rfl, rfl, rfl, rfl, rfl, rfl, rfl, rfl, rfl, rfl, rfl, rfl, rfl, rfl, rfl, rfl, rfl, rfl, rfl, rfl, rfl,
    rfl, rfl, rfl, rfl, rfl, rfl, rfl, rfl, rfl, rfl, rfl, rfl, rfl⟩

@[simp] theorem modItem_fields (s : State) (c : CoreId) (f : Item → Item) :
    (modItem s c f).variant = s.variant ∧ (modItem s c f).suffixE = s.suffixE ∧ (modItem s c f).serial = s.serial ∧
    (modItem s c f).slotId = s.slotId ∧ (modItem s c f).pending = s.pending ∧ (modItem s c f).free = s.free ∧
    (modItem s c f).out = s.out ∧ (modItem s c f).scratch = s.scratch ∧ (modItem s c f).pcache = s.pcache ∧
    (modItem s c f).cph = s.cph ∧ (modItem s c f).hsh = s.hsh ∧ (modItem s c f).cvu = s.cvu ∧
    (modItem s c f).cvctx = s.cvctx ∧ (modItem s c f).bne = s.bne ∧ (modItem s c f).lte = s.lte ∧
    (modItem s c f).dsp = s.dsp ∧ (modItem s c f).ins = s.ins ∧ (modItem s c f).ksc = s.ksc ∧
    (modItem s c f).mer = s.mer ∧ (modItem s c f).rng = s.rng ∧ (modItem s c f).net = s.net ∧
    (modItem s c f).prl = s.prl ∧ (modItem s c f).mec = s.mec ∧ (modItem s c f).apu = s.apu ∧
    (modItem s c f).bin = s.bin ∧ (modItem s c f).lcf = s.lcf ∧ (modItem s c f).dbg = s.dbg ∧
    (modItem s c f).log = s.log ∧ (modItem s c f).pwr = s.pwr ∧ (modItem s c f).drl = s.drl ∧
    (modItem s c f).smb = s.smb ∧ (modItem s c f).qrm = s.qrm ∧ (modItem s c f).regs = s.regs ∧
    (modItem s c f).shadows = s.shadows ∧ (modItem s c f).stages = s.stages ∧ (modItem s c f).locked = s.locked :=
  ⟨rfl, rfl, rfl, rfl, rfl, rfl, rfl, rfl, rfl, rfl, rfl, rfl, rfl, rfl, rfl, rfl, rfl, rfl, rfl, rfl, rfl, rfl, rfl,
    rfl, rfl, rfl, rfl, rfl, rfl, rfl, rfl, rfl, rfl, rfl, rfl, rfl⟩

@[simp] theorem modCtx_fields (s : State) (c : CoreId) (f : Ctx → Ctx) :
    (modCtx s c f).variant = s.variant ∧ (modCtx s c f).suffixE = s.suffixE ∧ (modCtx s c f).serial = s.serial ∧
    (modCtx s c f).slotId = s.slotId ∧ (modCtx s c f).pending = s.pending ∧ (modCtx s c f).free = s.free ∧
    (modCtx s c f).out = s.out ∧ (modCtx s c f).scratch = s.scratch ∧ (modCtx s c f).pcache = s.pcache ∧
    (modCtx s c f).cph = s.cph ∧ (modCtx s c f).hsh = s.hsh ∧ (modCtx s c f).cvu = s.cvu ∧
    (modCtx s c f).cvctx = s.cvctx ∧ (modCtx s c f).bne = s.bne ∧ (modCtx s c f).lte = s.lte ∧
    (modCtx s c f).dsp = s.dsp ∧ (modCtx s c f).ins = s.ins ∧ (modCtx s c f).ksc = s.ksc ∧
    (modCtx s c f).mer = s.mer ∧ (modCtx s c f).rng = s.rng ∧ (modCtx s c f).net = s.net ∧
    (modCtx s c f).prl = s.prl ∧ (modCtx s c f).mec = s.mec ∧ (modCtx s c f).apu = s.apu ∧
    (modCtx s c f).bin = s.bin ∧ (modCtx s c f).lcf = s.lcf ∧ (modCtx s c f).dbg = s.dbg ∧
    (modCtx s c f).log = s.log ∧ (modCtx s c f).pwr = s.pwr ∧ (modCtx s c f).drl = s.drl ∧
    (modCtx s c f).smb = s.smb ∧ (modCtx s c f).qrm = s.qrm ∧ (modCtx s c f).regs = s.regs ∧
    (modCtx s c f).shadows = s.shadows ∧ (modCtx s c f).stages = s.stages ∧ (modCtx s c f).locked = s.locked :=
  ⟨rfl, rfl, rfl, rfl, rfl, rfl, rfl, rfl, rfl, rfl, rfl, rfl, rfl, rfl, rfl, rfl, rfl, rfl, rfl, rfl, rfl, rfl, rfl,
    rfl, rfl, rfl, rfl, rfl, rfl, rfl, rfl, rfl, rfl, rfl, rfl, rfl⟩

@[simp] theorem trouble_fields (s : State) (i c : Nat) :
    (trouble s i c).variant = s.variant ∧ (trouble s i c).suffixE = s.suffixE ∧ (trouble s i c).serial = s.serial ∧
    (trouble s i c).slotId = s.slotId ∧ (trouble s i c).pending = s.pending ∧ (trouble s i c).free = s.free ∧
    (trouble s i c).out = s.out ∧ (trouble s i c).cores = s.cores ∧ (trouble s i c).scratch = s.scratch ∧
    (trouble s i c).pcache = s.pcache ∧ (trouble s i c).cph = s.cph ∧ (trouble s i c).hsh = s.hsh ∧
    (trouble s i c).cvu = s.cvu ∧ (trouble s i c).cvctx = s.cvctx ∧ (trouble s i c).bne = s.bne ∧
    (trouble s i c).lte = s.lte ∧ (trouble s i c).dsp = s.dsp ∧ (trouble s i c).ins = s.ins ∧
    (trouble s i c).ksc = s.ksc ∧ (trouble s i c).mer = s.mer ∧ (trouble s i c).rng = s.rng ∧
    (trouble s i c).net = s.net ∧ (trouble s i c).prl = s.prl ∧ (trouble s i c).mec = s.mec ∧
    (trouble s i c).apu = s.apu ∧ (trouble s i c).bin = s.bin ∧ (trouble s i c).lcf = s.lcf ∧
    (trouble s i c).dbg = s.dbg ∧ (trouble s i c).pwr = s.pwr ∧ (trouble s i c).drl = s.drl ∧
    (trouble s i c).smb = s.smb ∧ (trouble s i c).qrm = s.qrm ∧ (trouble s i c).regs = s.regs ∧
    (trouble s i c).shadows = s.shadows ∧ (trouble s i c).stages = s.stages ∧ (trouble s i c).locked = s.locked :=
  ⟨rfl, rfl, rfl, rfl, rfl, rfl, rfl, rfl, rfl, rfl, rfl, rfl, rfl, rfl, rfl, rfl, rfl, rfl, rfl, rfl, rfl, rfl, rfl,
    rfl, rfl, rfl, rfl, rfl, rfl, rfl, rfl, rfl, rfl, rfl, rfl, rfl⟩

@[simp] theorem troubleMod_fields (s : State) (c : Nat) :
    (troubleMod s c).variant = s.variant ∧ (troubleMod s c).suffixE = s.suffixE ∧
    (troubleMod s c).serial = s.serial ∧ (troubleMod s c).slotId = s.slotId ∧ (troubleMod s c).pending = s.pending ∧
    (troubleMod s c).free = s.free ∧ (troubleMod s c).out = s.out ∧ (troubleMod s c).cores = s.cores ∧
    (troubleMod s c).scratch = s.scratch ∧ (troubleMod s c).pcache = s.pcache ∧ (troubleMod s c).cph = s.cph ∧
    (troubleMod s c).hsh = s.hsh ∧ (troubleMod s c).cvu = s.cvu ∧ (troubleMod s c).cvctx = s.cvctx ∧
    (troubleMod s c).bne = s.bne ∧ (troubleMod s c).lte = s.lte ∧ (troubleMod s c).dsp = s.dsp ∧
    (troubleMod s c).ins = s.ins ∧ (troubleMod s c).ksc = s.ksc ∧ (troubleMod s c).mer = s.mer ∧
    (troubleMod s c).rng = s.rng ∧ (troubleMod s c).net = s.net ∧ (troubleMod s c).prl = s.prl ∧
    (troubleMod s c).mec = s.mec ∧ (troubleMod s c).apu = s.apu ∧ (troubleMod s c).bin = s.bin ∧
    (troubleMod s c).lcf = s.lcf ∧ (troubleMod s c).dbg = s.dbg ∧ (troubleMod s c).pwr = s.pwr ∧
    (troubleMod s c).drl = s.drl ∧ (troubleMod s c).smb = s.smb ∧ (troubleMod s c).qrm = s.qrm ∧
    (troubleMod s c).regs = s.regs ∧ (troubleMod s c).shadows = s.shadows ∧ (troubleMod s c).stages = s.stages ∧
    (troubleMod s c).locked = s.locked :=
  ⟨rfl, rfl, rfl, rfl, rfl, rfl, rfl, rfl, rfl, rfl, rfl, rfl, rfl, rfl, rfl, rfl, rfl, rfl, rfl, rfl, rfl, rfl, rfl,
    rfl, rfl, rfl, rfl, rfl, rfl, rfl, rfl, rfl, rfl, rfl, rfl, rfl⟩

@[simp] theorem store_fields (s : State) (a : Nat) (v : BitVec 32) :
    (store s a v).variant = s.variant ∧ (store s a v).suffixE = s.suffixE ∧ (store s a v).serial = s.serial ∧
    (store s a v).slotId = s.slotId ∧ (store s a v).pending = s.pending ∧ (store s a v).free = s.free ∧
    (store s a v).out = s.out ∧ (store s a v).cores = s.cores ∧ (store s a v).scratch = s.scratch ∧
    (store s a v).pcache = s.pcache ∧ (store s a v).cph = s.cph ∧ (store s a v).hsh = s.hsh ∧
    (store s a v).cvu = s.cvu ∧ (store s a v).cvctx = s.cvctx ∧ (store s a v).bne = s.bne ∧
    (store s a v).lte = s.lte ∧ (store s a v).dsp = s.dsp ∧ (store s a v).ins = s.ins ∧ (store s a v).ksc = s.ksc ∧
    (store s a v).mer = s.mer ∧ (store s a v).rng = s.rng ∧ (store s a v).net = s.net ∧ (store s a v).prl = s.prl ∧
    (store s a v).mec = s.mec ∧ (store s a v).apu = s.apu ∧ (store s a v).bin = s.bin ∧ (store s a v).lcf = s.lcf ∧
    (store s a v).dbg = s.dbg ∧ (store s a v).log = s.log ∧ (store s a v).pwr = s.pwr ∧ (store s a v).drl = s.drl ∧
    (store s a v).smb = s.smb ∧ (store s a v).qrm = s.qrm ∧ (store s a v).shadows = s.shadows ∧
    (store s a v).stages = s.stages ∧ (store s a v).locked = s.locked :=
  ⟨rfl, rfl, rfl, rfl, rfl, rfl, rfl, rfl, rfl, rfl, rfl, rfl, rfl, rfl, rfl, rfl, rfl, rfl, rfl, rfl, rfl, rfl, rfl,
    rfl, rfl, rfl, rfl, rfl, rfl, rfl, rfl, rfl, rfl, rfl, rfl, rfl⟩

@[simp] theorem setBit_fields (s : State) (a i : Nat) (b : Bool) :
    (setBit s a i b).variant = s.variant ∧ (setBit s a i b).suffixE = s.suffixE ∧
    (setBit s a i b).serial = s.serial ∧ (setBit s a i b).slotId = s.slotId ∧ (setBit s a i b).pending = s.pending ∧
    (setBit s a i b).free = s.free ∧ (setBit s a i b).out = s.out ∧ (setBit s a i b).cores = s.cores ∧
    (setBit s a i b).scratch = s.scratch ∧ (setBit s a i b).pcache = s.pcache ∧ (setBit s a i b).cph = s.cph ∧
    (setBit s a i b).hsh = s.hsh ∧ (setBit s a i b).cvu = s.cvu ∧ (setBit s a i b).cvctx = s.cvctx ∧
    (setBit s a i b).bne = s.bne ∧ (setBit s a i b).lte = s.lte ∧ (setBit s a i b).dsp = s.dsp ∧
    (setBit s a i b).ins = s.ins ∧ (setBit s a i b).ksc = s.ksc ∧ (setBit s a i b).mer = s.mer ∧
    (setBit s a i b).rng = s.rng ∧ (setBit s a i b).net = s.net ∧ (setBit s a i b).prl = s.prl ∧
    (setBit s a i b).mec = s.mec ∧ (setBit s a i b).apu = s.apu ∧ (setBit s a i b).bin = s.bin ∧
    (setBit s a i b).lcf = s.lcf ∧ (setBit s a i b).dbg = s.dbg ∧ (setBit s a i b).log = s.log ∧
    (setBit s a i b).pwr = s.pwr ∧ (setBit s a i b).drl = s.drl ∧ (setBit s a i b).smb = s.smb ∧
    (setBit s a i b).qrm = s.qrm ∧ (setBit s a i b).shadows = s.shadows ∧ (setBit s a i b).stages = s.stages ∧
    (setBit s a i b).locked = s.locked :=
  ⟨rfl, rfl, rfl, rfl, rfl, rfl, rfl, rfl, rfl, rfl, rfl, rfl, rfl, rfl, rfl, rfl, rfl, rfl, rfl, rfl, rfl, rfl, rfl,
    rfl, rfl, rfl, rfl, rfl, rfl, rfl, rfl, rfl, rfl, rfl, rfl, rfl⟩

@[simp] theorem setFld_fields (s : State) (a l n v : Nat) :
    (setFld s a l n v).variant = s.variant ∧ (setFld s a l n v).suffixE = s.suffixE ∧
    (setFld s a l n v).serial = s.serial ∧ (setFld s a l n v).slotId = s.slotId ∧
    (setFld s a l n v).pending = s.pending ∧ (setFld s a l n v).free = s.free ∧ (setFld s a l n v).out = s.out ∧
    (setFld s a l n v).cores = s.cores ∧ (setFld s a l n v).scratch = s.scratch ∧
    (setFld s a l n v).pcache = s.pcache ∧ (setFld s a l n v).cph = s.cph ∧ (setFld s a l n v).hsh = s.hsh ∧
    (setFld s a l n v).cvu = s.cvu ∧ (setFld s a l n v).cvctx = s.cvctx ∧ (setFld s a l n v).bne = s.bne ∧
    (setFld s a l n v).lte = s.lte ∧ (setFld s a l n v).dsp = s.dsp ∧ (setFld s a l n v).ins = s.ins ∧
    (setFld s a l n v).ksc = s.ksc ∧ (setFld s a l n v).mer = s.mer ∧ (setFld s a l n v).rng = s.rng ∧
    (setFld s a l n v).net = s.net ∧ (setFld s a l n v).prl = s.prl ∧ (setFld s a l n v).mec = s.mec ∧
    (setFld s a l n v).apu = s.apu ∧ (setFld s a l n v).bin = s.bin ∧ (setFld s a l n v).lcf = s.lcf ∧
    (setFld s a l n v).dbg = s.dbg ∧ (setFld s a l n v).log = s.log ∧ (setFld s a l n v).pwr = s.pwr ∧
    (setFld s a l n v).drl = s.drl ∧ (setFld s a l n v).smb = s.smb ∧ (setFld s a l n v).qrm = s.qrm ∧
    (setFld s a l n v).shadows = s.shadows ∧ (setFld s a l n v).stages = s.stages ∧
    (setFld s a l n v).locked = s.locked :=
  ⟨rfl, rfl, rfl, rfl, rfl, rfl, rfl, rfl, rfl, rfl, rfl, rfl, rfl, rfl, rfl, rfl, rfl, rfl, rfl, rfl, rfl, rfl, rfl,
    rfl, rfl, rfl, rfl, rfl, rfl, rfl, rfl, rfl, rfl, rfl, rfl, rfl⟩

@[simp] theorem modIns_fields (s : State) (i : Nat) (f : InstRt → InstRt) :
    (modIns s i f).variant = s.variant ∧ (modIns s i f).suffixE = s.suffixE ∧ (modIns s i f).serial = s.serial ∧
    (modIns s i f).slotId = s.slotId ∧ (modIns s i f).pending = s.pending ∧ (modIns s i f).free = s.free ∧
    (modIns s i f).out = s.out ∧ (modIns s i f).cores = s.cores ∧ (modIns s i f).scratch = s.scratch ∧
    (modIns s i f).pcache = s.pcache ∧ (modIns s i f).cph = s.cph ∧ (modIns s i f).hsh = s.hsh ∧
    (modIns s i f).cvu = s.cvu ∧ (modIns s i f).cvctx = s.cvctx ∧ (modIns s i f).bne = s.bne ∧
    (modIns s i f).lte = s.lte ∧ (modIns s i f).dsp = s.dsp ∧ (modIns s i f).ksc = s.ksc ∧
    (modIns s i f).mer = s.mer ∧ (modIns s i f).rng = s.rng ∧ (modIns s i f).net = s.net ∧
    (modIns s i f).prl = s.prl ∧ (modIns s i f).mec = s.mec ∧ (modIns s i f).apu = s.apu ∧
    (modIns s i f).bin = s.bin ∧ (modIns s i f).lcf = s.lcf ∧ (modIns s i f).dbg = s.dbg ∧
    (modIns s i f).log = s.log ∧ (modIns s i f).pwr = s.pwr ∧ (modIns s i f).drl = s.drl ∧
    (modIns s i f).smb = s.smb ∧ (modIns s i f).qrm = s.qrm ∧ (modIns s i f).regs = s.regs ∧
    (modIns s i f).shadows = s.shadows ∧ (modIns s i f).stages = s.stages ∧ (modIns s i f).locked = s.locked :=
  ⟨rfl, rfl, rfl, rfl, rfl, rfl, rfl, rfl, rfl, rfl, rfl, rfl, rfl, rfl, rfl, rfl, rfl, rfl, rfl, rfl, rfl, rfl, rfl,
    rfl, rfl, rfl, rfl, rfl, rfl, rfl, rfl, rfl, rfl, rfl, rfl, rfl⟩

@[simp] theorem modPort_fields (s : State) (p : Nat) (f : Port → Port) :
    (modPort s p f).variant = s.variant ∧ (modPort s p f).suffixE = s.suffixE ∧ (modPort s p f).serial = s.serial ∧
    (modPort s p f).slotId = s.slotId ∧ (modPort s p f).pending = s.pending ∧ (modPort s p f).free = s.free ∧
    (modPort s p f).out = s.out ∧ (modPort s p f).cores = s.cores ∧ (modPort s p f).scratch = s.scratch ∧
    (modPort s p f).pcache = s.pcache ∧ (modPort s p f).cph = s.cph ∧ (modPort s p f).hsh = s.hsh ∧
    (modPort s p f).cvu = s.cvu ∧ (modPort s p f).cvctx = s.cvctx ∧ (modPort s p f).bne = s.bne ∧
    (modPort s p f).lte = s.lte ∧ (modPort s p f).dsp = s.dsp ∧ (modPort s p f).ins = s.ins ∧
    (modPort s p f).ksc = s.ksc ∧ (modPort s p f).mer = s.mer ∧ (modPort s p f).rng = s.rng ∧
    (modPort s p f).prl = s.prl ∧ (modPort s p f).mec = s.mec ∧ (modPort s p f).apu = s.apu ∧
    (modPort s p f).bin = s.bin ∧ (modPort s p f).lcf = s.lcf ∧ (modPort s p f).dbg = s.dbg ∧
    (modPort s p f).log = s.log ∧ (modPort s p f).pwr = s.pwr ∧ (modPort s p f).drl = s.drl ∧
    (modPort s p f).smb = s.smb ∧ (modPort s p f).qrm = s.qrm ∧ (modPort s p f).regs = s.regs ∧
    (modPort s p f).shadows = s.shadows ∧ (modPort s p f).stages = s.stages ∧ (modPort s p f).locked = s.locked :=
  ⟨rfl, rfl, rfl, rfl, rfl, rfl, rfl, rfl, rfl, rfl, rfl, rfl, rfl, rfl, rfl, rfl, rfl, rfl, rfl, rfl, rfl, rfl, rfl,
    rfl, rfl, rfl, rfl, rfl, rfl, rfl, rfl, rfl, rfl, rfl, rfl, rfl⟩

@[simp] theorem modSess_fields (s : State) (i : Nat) (f : Session → Session) :
    (modSess s i f).variant = s.variant ∧ (modSess s i f).suffixE = s.suffixE ∧ (modSess s i f).serial = s.serial ∧
    (modSess s i f).slotId = s.slotId ∧ (modSess s i f).pending = s.pending ∧ (modSess s i f).free = s.free ∧
    (modSess s i f).out = s.out ∧ (modSess s i f).cores = s.cores ∧ (modSess s i f).scratch = s.scratch ∧
    (modSess s i f).pcache = s.pcache ∧ (modSess s i f).cph = s.cph ∧ (modSess s i f).hsh = s.hsh ∧
    (modSess s i f).cvu = s.cvu ∧ (modSess s i f).cvctx = s.cvctx ∧ (modSess s i f).bne = s.bne ∧
    (modSess s i f).lte = s.lte ∧ (modSess s i f).dsp = s.dsp ∧ (modSess s i f).ins = s.ins ∧
    (modSess s i f).ksc = s.ksc ∧ (modSess s i f).mer = s.mer ∧ (modSess s i f).rng = s.rng ∧
    (modSess s i f).prl = s.prl ∧ (modSess s i f).mec = s.mec ∧ (modSess s i f).apu = s.apu ∧
    (modSess s i f).bin = s.bin ∧ (modSess s i f).lcf = s.lcf ∧ (modSess s i f).dbg = s.dbg ∧
    (modSess s i f).log = s.log ∧ (modSess s i f).pwr = s.pwr ∧ (modSess s i f).drl = s.drl ∧
    (modSess s i f).smb = s.smb ∧ (modSess s i f).qrm = s.qrm ∧ (modSess s i f).regs = s.regs ∧
    (modSess s i f).shadows = s.shadows ∧ (modSess s i f).stages = s.stages ∧ (modSess s i f).locked = s.locked :=
  ⟨rfl, rfl, rfl, rfl, rfl, rfl, rfl, rfl, rfl, rfl, rfl, rfl, rfl, rfl, rfl, rfl, rfl, rfl, rfl, rfl, rfl, rfl, rfl,
    rfl, rfl, rfl, rfl, rfl, rfl, rfl, rfl, rfl, rfl, rfl, rfl, rfl⟩

@[simp] theorem modRet_fields (s : State) (i q : Nat) (f : Retained → Retained) :
    (modRet s i q f).variant = s.variant ∧ (modRet s i q f).suffixE = s.suffixE ∧
    (modRet s i q f).serial = s.serial ∧ (modRet s i q f).slotId = s.slotId ∧ (modRet s i q f).pending = s.pending ∧
    (modRet s i q f).free = s.free ∧ (modRet s i q f).out = s.out ∧ (modRet s i q f).cores = s.cores ∧
    (modRet s i q f).scratch = s.scratch ∧ (modRet s i q f).pcache = s.pcache ∧ (modRet s i q f).cph = s.cph ∧
    (modRet s i q f).hsh = s.hsh ∧ (modRet s i q f).cvu = s.cvu ∧ (modRet s i q f).cvctx = s.cvctx ∧
    (modRet s i q f).bne = s.bne ∧ (modRet s i q f).lte = s.lte ∧ (modRet s i q f).dsp = s.dsp ∧
    (modRet s i q f).ins = s.ins ∧ (modRet s i q f).ksc = s.ksc ∧ (modRet s i q f).mer = s.mer ∧
    (modRet s i q f).rng = s.rng ∧ (modRet s i q f).prl = s.prl ∧ (modRet s i q f).mec = s.mec ∧
    (modRet s i q f).apu = s.apu ∧ (modRet s i q f).bin = s.bin ∧ (modRet s i q f).lcf = s.lcf ∧
    (modRet s i q f).dbg = s.dbg ∧ (modRet s i q f).log = s.log ∧ (modRet s i q f).pwr = s.pwr ∧
    (modRet s i q f).drl = s.drl ∧ (modRet s i q f).smb = s.smb ∧ (modRet s i q f).qrm = s.qrm ∧
    (modRet s i q f).regs = s.regs ∧ (modRet s i q f).shadows = s.shadows ∧ (modRet s i q f).stages = s.stages ∧
    (modRet s i q f).locked = s.locked :=
  ⟨rfl, rfl, rfl, rfl, rfl, rfl, rfl, rfl, rfl, rfl, rfl, rfl, rfl, rfl, rfl, rfl, rfl, rfl, rfl, rfl, rfl, rfl, rfl,
    rfl, rfl, rfl, rfl, rfl, rfl, rfl, rfl, rfl, rfl, rfl, rfl, rfl⟩

@[simp] theorem modPrl_fields (s : State) (f : Prl → Prl) :
    (modPrl s f).variant = s.variant ∧ (modPrl s f).suffixE = s.suffixE ∧ (modPrl s f).serial = s.serial ∧
    (modPrl s f).slotId = s.slotId ∧ (modPrl s f).pending = s.pending ∧ (modPrl s f).free = s.free ∧
    (modPrl s f).out = s.out ∧ (modPrl s f).cores = s.cores ∧ (modPrl s f).scratch = s.scratch ∧
    (modPrl s f).pcache = s.pcache ∧ (modPrl s f).cph = s.cph ∧ (modPrl s f).hsh = s.hsh ∧ (modPrl s f).cvu = s.cvu ∧
    (modPrl s f).cvctx = s.cvctx ∧ (modPrl s f).bne = s.bne ∧ (modPrl s f).lte = s.lte ∧ (modPrl s f).dsp = s.dsp ∧
    (modPrl s f).ins = s.ins ∧ (modPrl s f).ksc = s.ksc ∧ (modPrl s f).mer = s.mer ∧ (modPrl s f).rng = s.rng ∧
    (modPrl s f).net = s.net ∧ (modPrl s f).mec = s.mec ∧ (modPrl s f).apu = s.apu ∧ (modPrl s f).bin = s.bin ∧
    (modPrl s f).lcf = s.lcf ∧ (modPrl s f).dbg = s.dbg ∧ (modPrl s f).log = s.log ∧ (modPrl s f).pwr = s.pwr ∧
    (modPrl s f).drl = s.drl ∧ (modPrl s f).smb = s.smb ∧ (modPrl s f).qrm = s.qrm ∧ (modPrl s f).regs = s.regs ∧
    (modPrl s f).shadows = s.shadows ∧ (modPrl s f).stages = s.stages ∧ (modPrl s f).locked = s.locked :=
  ⟨rfl, rfl, rfl, rfl, rfl, rfl, rfl, rfl, rfl, rfl, rfl, rfl, rfl, rfl, rfl, rfl, rfl, rfl, rfl, rfl, rfl, rfl, rfl,
    rfl, rfl, rfl, rfl, rfl, rfl, rfl, rfl, rfl, rfl, rfl, rfl, rfl⟩

@[simp] theorem modMec_fields (s : State) (f : Mec → Mec) :
    (modMec s f).variant = s.variant ∧ (modMec s f).suffixE = s.suffixE ∧ (modMec s f).serial = s.serial ∧
    (modMec s f).slotId = s.slotId ∧ (modMec s f).pending = s.pending ∧ (modMec s f).free = s.free ∧
    (modMec s f).out = s.out ∧ (modMec s f).cores = s.cores ∧ (modMec s f).scratch = s.scratch ∧
    (modMec s f).pcache = s.pcache ∧ (modMec s f).cph = s.cph ∧ (modMec s f).hsh = s.hsh ∧ (modMec s f).cvu = s.cvu ∧
    (modMec s f).cvctx = s.cvctx ∧ (modMec s f).bne = s.bne ∧ (modMec s f).lte = s.lte ∧ (modMec s f).dsp = s.dsp ∧
    (modMec s f).ins = s.ins ∧ (modMec s f).ksc = s.ksc ∧ (modMec s f).mer = s.mer ∧ (modMec s f).rng = s.rng ∧
    (modMec s f).net = s.net ∧ (modMec s f).prl = s.prl ∧ (modMec s f).apu = s.apu ∧ (modMec s f).bin = s.bin ∧
    (modMec s f).lcf = s.lcf ∧ (modMec s f).dbg = s.dbg ∧ (modMec s f).log = s.log ∧ (modMec s f).pwr = s.pwr ∧
    (modMec s f).drl = s.drl ∧ (modMec s f).smb = s.smb ∧ (modMec s f).qrm = s.qrm ∧ (modMec s f).regs = s.regs ∧
    (modMec s f).shadows = s.shadows ∧ (modMec s f).stages = s.stages ∧ (modMec s f).locked = s.locked :=
  ⟨rfl, rfl, rfl, rfl, rfl, rfl, rfl, rfl, rfl, rfl, rfl, rfl, rfl, rfl, rfl, rfl, rfl, rfl, rfl, rfl, rfl, rfl, rfl,
    rfl, rfl, rfl, rfl, rfl, rfl, rfl, rfl, rfl, rfl, rfl, rfl, rfl⟩

@[simp] theorem modBne_fields (s : State) (e : Nat) (f : PoolEngine → PoolEngine) :
    (modBne s e f).variant = s.variant ∧ (modBne s e f).suffixE = s.suffixE ∧ (modBne s e f).serial = s.serial ∧
    (modBne s e f).slotId = s.slotId ∧ (modBne s e f).pending = s.pending ∧ (modBne s e f).free = s.free ∧
    (modBne s e f).out = s.out ∧ (modBne s e f).cores = s.cores ∧ (modBne s e f).scratch = s.scratch ∧
    (modBne s e f).pcache = s.pcache ∧ (modBne s e f).cph = s.cph ∧ (modBne s e f).hsh = s.hsh ∧
    (modBne s e f).cvu = s.cvu ∧ (modBne s e f).cvctx = s.cvctx ∧ (modBne s e f).lte = s.lte ∧
    (modBne s e f).dsp = s.dsp ∧ (modBne s e f).ins = s.ins ∧ (modBne s e f).ksc = s.ksc ∧
    (modBne s e f).mer = s.mer ∧ (modBne s e f).rng = s.rng ∧ (modBne s e f).net = s.net ∧
    (modBne s e f).prl = s.prl ∧ (modBne s e f).mec = s.mec ∧ (modBne s e f).apu = s.apu ∧
    (modBne s e f).bin = s.bin ∧ (modBne s e f).lcf = s.lcf ∧ (modBne s e f).dbg = s.dbg ∧
    (modBne s e f).log = s.log ∧ (modBne s e f).pwr = s.pwr ∧ (modBne s e f).drl = s.drl ∧
    (modBne s e f).smb = s.smb ∧ (modBne s e f).qrm = s.qrm ∧ (modBne s e f).regs = s.regs ∧
    (modBne s e f).shadows = s.shadows ∧ (modBne s e f).stages = s.stages ∧ (modBne s e f).locked = s.locked :=
  ⟨rfl, rfl, rfl, rfl, rfl, rfl, rfl, rfl, rfl, rfl, rfl, rfl, rfl, rfl, rfl, rfl, rfl, rfl, rfl, rfl, rfl, rfl, rfl,
    rfl, rfl, rfl, rfl, rfl, rfl, rfl, rfl, rfl, rfl, rfl, rfl, rfl⟩

@[simp] theorem modLte_fields (s : State) (e : Nat) (f : PoolEngine → PoolEngine) :
    (modLte s e f).variant = s.variant ∧ (modLte s e f).suffixE = s.suffixE ∧ (modLte s e f).serial = s.serial ∧
    (modLte s e f).slotId = s.slotId ∧ (modLte s e f).pending = s.pending ∧ (modLte s e f).free = s.free ∧
    (modLte s e f).out = s.out ∧ (modLte s e f).cores = s.cores ∧ (modLte s e f).scratch = s.scratch ∧
    (modLte s e f).pcache = s.pcache ∧ (modLte s e f).cph = s.cph ∧ (modLte s e f).hsh = s.hsh ∧
    (modLte s e f).cvu = s.cvu ∧ (modLte s e f).cvctx = s.cvctx ∧ (modLte s e f).bne = s.bne ∧
    (modLte s e f).dsp = s.dsp ∧ (modLte s e f).ins = s.ins ∧ (modLte s e f).ksc = s.ksc ∧
    (modLte s e f).mer = s.mer ∧ (modLte s e f).rng = s.rng ∧ (modLte s e f).net = s.net ∧
    (modLte s e f).prl = s.prl ∧ (modLte s e f).mec = s.mec ∧ (modLte s e f).apu = s.apu ∧
    (modLte s e f).bin = s.bin ∧ (modLte s e f).lcf = s.lcf ∧ (modLte s e f).dbg = s.dbg ∧
    (modLte s e f).log = s.log ∧ (modLte s e f).pwr = s.pwr ∧ (modLte s e f).drl = s.drl ∧
    (modLte s e f).smb = s.smb ∧ (modLte s e f).qrm = s.qrm ∧ (modLte s e f).regs = s.regs ∧
    (modLte s e f).shadows = s.shadows ∧ (modLte s e f).stages = s.stages ∧ (modLte s e f).locked = s.locked :=
  ⟨rfl, rfl, rfl, rfl, rfl, rfl, rfl, rfl, rfl, rfl, rfl, rfl, rfl, rfl, rfl, rfl, rfl, rfl, rfl, rfl, rfl, rfl, rfl,
    rfl, rfl, rfl, rfl, rfl, rfl, rfl, rfl, rfl, rfl, rfl, rfl, rfl⟩

@[simp] theorem modCer_fields (s : State) (n : Nat) (f : Ceremony → Ceremony) :
    (modCer s n f).variant = s.variant ∧ (modCer s n f).suffixE = s.suffixE ∧ (modCer s n f).serial = s.serial ∧
    (modCer s n f).slotId = s.slotId ∧ (modCer s n f).pending = s.pending ∧ (modCer s n f).free = s.free ∧
    (modCer s n f).out = s.out ∧ (modCer s n f).cores = s.cores ∧ (modCer s n f).scratch = s.scratch ∧
    (modCer s n f).pcache = s.pcache ∧ (modCer s n f).cph = s.cph ∧ (modCer s n f).hsh = s.hsh ∧
    (modCer s n f).cvu = s.cvu ∧ (modCer s n f).cvctx = s.cvctx ∧ (modCer s n f).bne = s.bne ∧
    (modCer s n f).lte = s.lte ∧ (modCer s n f).dsp = s.dsp ∧ (modCer s n f).ins = s.ins ∧
    (modCer s n f).ksc = s.ksc ∧ (modCer s n f).mer = s.mer ∧ (modCer s n f).rng = s.rng ∧
    (modCer s n f).net = s.net ∧ (modCer s n f).prl = s.prl ∧ (modCer s n f).mec = s.mec ∧
    (modCer s n f).apu = s.apu ∧ (modCer s n f).bin = s.bin ∧ (modCer s n f).lcf = s.lcf ∧
    (modCer s n f).dbg = s.dbg ∧ (modCer s n f).log = s.log ∧ (modCer s n f).pwr = s.pwr ∧
    (modCer s n f).drl = s.drl ∧ (modCer s n f).smb = s.smb ∧ (modCer s n f).regs = s.regs ∧
    (modCer s n f).shadows = s.shadows ∧ (modCer s n f).stages = s.stages ∧ (modCer s n f).locked = s.locked :=
  ⟨rfl, rfl, rfl, rfl, rfl, rfl, rfl, rfl, rfl, rfl, rfl, rfl, rfl, rfl, rfl, rfl, rfl, rfl, rfl, rfl, rfl, rfl, rfl,
    rfl, rfl, rfl, rfl, rfl, rfl, rfl, rfl, rfl, rfl, rfl, rfl, rfl⟩

@[simp] theorem modCounter_fields (s : State) (n : KeyName) (f : Counter → Counter) :
    (modCounter s n f).variant = s.variant ∧ (modCounter s n f).suffixE = s.suffixE ∧
    (modCounter s n f).serial = s.serial ∧ (modCounter s n f).slotId = s.slotId ∧
    (modCounter s n f).pending = s.pending ∧ (modCounter s n f).free = s.free ∧ (modCounter s n f).out = s.out ∧
    (modCounter s n f).cores = s.cores ∧ (modCounter s n f).scratch = s.scratch ∧
    (modCounter s n f).pcache = s.pcache ∧ (modCounter s n f).cph = s.cph ∧ (modCounter s n f).hsh = s.hsh ∧
    (modCounter s n f).cvu = s.cvu ∧ (modCounter s n f).cvctx = s.cvctx ∧ (modCounter s n f).bne = s.bne ∧
    (modCounter s n f).lte = s.lte ∧ (modCounter s n f).dsp = s.dsp ∧ (modCounter s n f).ins = s.ins ∧
    (modCounter s n f).mer = s.mer ∧ (modCounter s n f).rng = s.rng ∧ (modCounter s n f).net = s.net ∧
    (modCounter s n f).prl = s.prl ∧ (modCounter s n f).mec = s.mec ∧ (modCounter s n f).apu = s.apu ∧
    (modCounter s n f).bin = s.bin ∧ (modCounter s n f).lcf = s.lcf ∧ (modCounter s n f).dbg = s.dbg ∧
    (modCounter s n f).log = s.log ∧ (modCounter s n f).pwr = s.pwr ∧ (modCounter s n f).drl = s.drl ∧
    (modCounter s n f).smb = s.smb ∧ (modCounter s n f).qrm = s.qrm ∧ (modCounter s n f).regs = s.regs ∧
    (modCounter s n f).shadows = s.shadows ∧ (modCounter s n f).stages = s.stages ∧
    (modCounter s n f).locked = s.locked :=
  ⟨rfl, rfl, rfl, rfl, rfl, rfl, rfl, rfl, rfl, rfl, rfl, rfl, rfl, rfl, rfl, rfl, rfl, rfl, rfl, rfl, rfl, rfl, rfl,
    rfl, rfl, rfl, rfl, rfl, rfl, rfl, rfl, rfl, rfl, rfl, rfl, rfl⟩

@[simp] theorem modInj_fields (s : State) (i : Nat) (f : Injector → Injector) :
    (modInj s i f).variant = s.variant ∧ (modInj s i f).suffixE = s.suffixE ∧ (modInj s i f).serial = s.serial ∧
    (modInj s i f).slotId = s.slotId ∧ (modInj s i f).pending = s.pending ∧ (modInj s i f).free = s.free ∧
    (modInj s i f).out = s.out ∧ (modInj s i f).cores = s.cores ∧ (modInj s i f).scratch = s.scratch ∧
    (modInj s i f).pcache = s.pcache ∧ (modInj s i f).cph = s.cph ∧ (modInj s i f).hsh = s.hsh ∧
    (modInj s i f).cvu = s.cvu ∧ (modInj s i f).cvctx = s.cvctx ∧ (modInj s i f).bne = s.bne ∧
    (modInj s i f).lte = s.lte ∧ (modInj s i f).dsp = s.dsp ∧ (modInj s i f).ins = s.ins ∧
    (modInj s i f).ksc = s.ksc ∧ (modInj s i f).mer = s.mer ∧ (modInj s i f).rng = s.rng ∧
    (modInj s i f).net = s.net ∧ (modInj s i f).prl = s.prl ∧ (modInj s i f).mec = s.mec ∧
    (modInj s i f).apu = s.apu ∧ (modInj s i f).bin = s.bin ∧ (modInj s i f).lcf = s.lcf ∧
    (modInj s i f).dbg = s.dbg ∧ (modInj s i f).log = s.log ∧ (modInj s i f).pwr = s.pwr ∧
    (modInj s i f).smb = s.smb ∧ (modInj s i f).qrm = s.qrm ∧ (modInj s i f).regs = s.regs ∧
    (modInj s i f).shadows = s.shadows ∧ (modInj s i f).stages = s.stages ∧ (modInj s i f).locked = s.locked :=
  ⟨rfl, rfl, rfl, rfl, rfl, rfl, rfl, rfl, rfl, rfl, rfl, rfl, rfl, rfl, rfl, rfl, rfl, rfl, rfl, rfl, rfl, rfl, rfl,
    rfl, rfl, rfl, rfl, rfl, rfl, rfl, rfl, rfl, rfl, rfl, rfl, rfl⟩

@[simp] theorem modSource_fields (s : State) (n : Nat) (f : Source → Source) :
    (modSource s n f).variant = s.variant ∧ (modSource s n f).suffixE = s.suffixE ∧
    (modSource s n f).serial = s.serial ∧ (modSource s n f).slotId = s.slotId ∧
    (modSource s n f).pending = s.pending ∧ (modSource s n f).free = s.free ∧ (modSource s n f).out = s.out ∧
    (modSource s n f).cores = s.cores ∧ (modSource s n f).scratch = s.scratch ∧ (modSource s n f).pcache = s.pcache ∧
    (modSource s n f).cph = s.cph ∧ (modSource s n f).hsh = s.hsh ∧ (modSource s n f).cvu = s.cvu ∧
    (modSource s n f).cvctx = s.cvctx ∧ (modSource s n f).bne = s.bne ∧ (modSource s n f).lte = s.lte ∧
    (modSource s n f).dsp = s.dsp ∧ (modSource s n f).ins = s.ins ∧ (modSource s n f).ksc = s.ksc ∧
    (modSource s n f).mer = s.mer ∧ (modSource s n f).rng = s.rng ∧ (modSource s n f).net = s.net ∧
    (modSource s n f).prl = s.prl ∧ (modSource s n f).mec = s.mec ∧ (modSource s n f).apu = s.apu ∧
    (modSource s n f).lcf = s.lcf ∧ (modSource s n f).dbg = s.dbg ∧ (modSource s n f).log = s.log ∧
    (modSource s n f).pwr = s.pwr ∧ (modSource s n f).drl = s.drl ∧ (modSource s n f).smb = s.smb ∧
    (modSource s n f).qrm = s.qrm ∧ (modSource s n f).regs = s.regs ∧ (modSource s n f).shadows = s.shadows ∧
    (modSource s n f).stages = s.stages ∧ (modSource s n f).locked = s.locked :=
  ⟨rfl, rfl, rfl, rfl, rfl, rfl, rfl, rfl, rfl, rfl, rfl, rfl, rfl, rfl, rfl, rfl, rfl, rfl, rfl, rfl, rfl, rfl, rfl,
    rfl, rfl, rfl, rfl, rfl, rfl, rfl, rfl, rfl, rfl, rfl, rfl, rfl⟩

@[simp] theorem toStage_fields (s : State) (n : Nat) :
    (toStage s n).variant = s.variant ∧ (toStage s n).suffixE = s.suffixE ∧ (toStage s n).serial = s.serial ∧
    (toStage s n).slotId = s.slotId ∧ (toStage s n).pending = s.pending ∧ (toStage s n).free = s.free ∧
    (toStage s n).out = s.out ∧ (toStage s n).cores = s.cores ∧ (toStage s n).scratch = s.scratch ∧
    (toStage s n).pcache = s.pcache ∧ (toStage s n).cph = s.cph ∧ (toStage s n).hsh = s.hsh ∧
    (toStage s n).cvu = s.cvu ∧ (toStage s n).cvctx = s.cvctx ∧ (toStage s n).bne = s.bne ∧
    (toStage s n).lte = s.lte ∧ (toStage s n).dsp = s.dsp ∧ (toStage s n).ins = s.ins ∧ (toStage s n).ksc = s.ksc ∧
    (toStage s n).mer = s.mer ∧ (toStage s n).rng = s.rng ∧ (toStage s n).net = s.net ∧ (toStage s n).prl = s.prl ∧
    (toStage s n).mec = s.mec ∧ (toStage s n).apu = s.apu ∧ (toStage s n).bin = s.bin ∧ (toStage s n).dbg = s.dbg ∧
    (toStage s n).log = s.log ∧ (toStage s n).pwr = s.pwr ∧ (toStage s n).drl = s.drl ∧ (toStage s n).smb = s.smb ∧
    (toStage s n).qrm = s.qrm ∧ (toStage s n).regs = s.regs ∧ (toStage s n).shadows = s.shadows ∧
    (toStage s n).stages = s.stages ∧ (toStage s n).locked = s.locked :=
  ⟨rfl, rfl, rfl, rfl, rfl, rfl, rfl, rfl, rfl, rfl, rfl, rfl, rfl, rfl, rfl, rfl, rfl, rfl, rfl, rfl, rfl, rfl, rfl,
    rfl, rfl, rfl, rfl, rfl, rfl, rfl, rfl, rfl, rfl, rfl, rfl, rfl⟩

/-! ### The field itself -/

@[simp] theorem emit_out (s : State) (o : Out) :
    (emit s o).out = s.out ++ [o] := rfl

@[simp] theorem modPrl_prl (s : State) (f : Prl → Prl) :
    (modPrl s f).prl = f s.prl := rfl

@[simp] theorem modMec_mec (s : State) (f : Mec → Mec) :
    (modMec s f).mec = f s.mec := rfl

@[simp] theorem toStage_lcf (s : State) (n : Nat) :
    (toStage s n).lcf = { s.lcf with stage := n } := rfl

@[simp] theorem modCer_cers (s : State) (n : Nat) (f : Ceremony → Ceremony) :
    (modCer s n f).qrm = { s.qrm with cers := s.qrm.cers.map fun x => if x.number = n then f x else x } := rfl

@[simp] theorem modIns_ins (s : State) (i : Nat) (f : InstRt → InstRt) :
    (modIns s i f).ins = s.ins.map fun x => if x.id = i then f x else x := rfl

@[simp] theorem modSess_sessions (s : State) (i : Nat) (f : Session → Session) :
    (modSess s i f).net.sessions = s.net.sessions.map fun x => if x.id = i then f x else x := rfl

@[simp] theorem modSess_ports (s : State) (i : Nat) (f : Session → Session) :
    (modSess s i f).net.ports = s.net.ports := rfl

@[simp] theorem modPort_sessions (s : State) (p : Nat) (f : Port → Port) :
    (modPort s p f).net.sessions = s.net.sessions := rfl

end Sys2Proof.Machine
end

