-- ==== Sys2Proof/Tests/Slice0.lean ====
section
/-! SUPPORT. Tests: ill-formed terms that WellFormed refuses, words written out from the tables of chapter 04, values that the
spec states, and for each statement with hypotheses a state and operands that meet them (`witness_<statement>`). -/

namespace Sys2Proof.Tests

open Sys2Proof Sys2Proof.Machine Sys2Proof.Claims

/-! ### Well-formed operations and commands -/

/-- Chapter 04, Table 4.10: each check of `Op.wf` refuses an operation. -/
theorem test_wf_refuses :
    Op.wf (.reg .clz 1 2 3) = false ∧ Op.wf (.reg .add 0 0 0) = false ∧ Op.wf (.imm .addi 1 2 false 0x10000) = false ∧
    Op.wf (.loop 1 1) = false ∧ Op.wf (.mem .ldm false .b 1 2 false 0x10000) = false ∧
    Op.wf (.br .eq 1 2 false 0x10000) = false ∧ Op.wf (.key .kload 1 1 2 3) = false ∧ Op.wf (.svc .done 1 0 0) = false ∧
    Op.wf (.svc .time 31 0 0) = false := by decide

/-- The same operations with the reserved field cleared or the prefix in place are well formed. -/
theorem test_wf_accepts :
    Op.wf (.reg .clz 1 2 0) = true ∧ Op.wf (.reg .add 1 0 0) = true ∧ Op.wf (.imm .addi 1 2 true 0x10000) = true ∧
    Op.wf (.loop 1 2) = true ∧ Op.wf (.svc .time 30 0 0) = true := by decide

/-! ### Words of chapter 04 -/

/-- Words of the spec's examples (R161, R174, Table 4.8). -/
theorem test_words_of_the_spec :
    decodeWords [0x0C408A01] = .op (.key .kload 1 0 4 10) 1 ∧ decodeWords [0x0C448A01] = .reserved ∧
    decodeWords [0x0C408A41] = .reserved ∧ decodeWords [0xE9400004] = .op (.br .ne 10 0 false 4) 1 ∧
    decodeWords [0xFC002100, 0x1C800003] = .op (.imm .ori 4 0 true 0x21000003) 2 ∧
    decodeWords [0xFC000D18, 0x2C84004C] = .op (.imm .lih 4 4 true 0x0D18004C) 2 := by decide

/-- One word of each other family, put together from the field positions of Table 4.1: opcode, then registers and function. -/
theorem test_words_of_families :
    decodeWords [0x00611000] = .op (.reg .add 3 1 2) 1 ∧ decodeWords [0x04611004] = .op (.mul .div 3 1 2) 1 ∧
    decodeWords [0x08000000] = .op .nop 1 ∧ decodeWords [0x08000001] = .op .ret 1 ∧
    decodeWords [0x08050002] = .op (.jr 5) 1 ∧ decodeWords [0x14A60FFF] = .op (.imm .addi 5 6 false 0x0FFF) 1 ∧
    decodeWords [0x30220304] = .op (.sh .rori 1 2 4) 1 ∧ decodeWords [0x34200009] = .op (.stat 1 9) 1 ∧
    decodeWords [0x38040003] = .op (.loop 4 3) 1 ∧ decodeWords [0x3C000002] = .op (.jmp false 2) 1 ∧
    decodeWords [0xE3FFFFFF] = .op (.jmp true 0x3FFFFFF) 1 ∧
    decodeWords [0x4CC70008] = .op (.mem .ldm false .d 6 7 false 8) 1 ∧
    decodeWords [0xD8C70008] = .op (.mem .scr true .w 6 7 false 8) 1 ∧
    decodeWords [0x10005001] = .op (.svc .reply 0 5 0) 1 := by decide

/-- Encodings of Table 4.10 are reserved, and a prefix as the last word is none (R165). -/
theorem test_reserved_words :
    decodeWords [0x00000000] = .reserved ∧ decodeWords [0x0000001D] = .reserved ∧ decodeWords [0x30220404] = .reserved ∧
    decodeWords [0x38040001] = .reserved ∧ decodeWords [0xFC002100, 0x00611000] = .reserved ∧
    decodeWords [0xFC002100] = .dangling ∧ decodeWords [] = .outside := by decide

/-! ### A core that runs one program -/

/-- A chain whose program is `code`. -/
def chainOf (code : List Nat) : Item :=
  { serial := 7, inst := 3, budget := 100, replyCap := 64, payload := [1, 2, 3, 4, 5, 6, 7, 8]
    image := some { dom := 1, image := 1, version := 1, signer := 0, entries := [], code := code
                    const := [9, 8, 7, 6, 5, 4, 3, 2], digest := [] } }

/-- The state at reset with `x` on core 0, whose register state is `k`. -/
def running (x : Item) (k : Ctx := {}) : State := State.reset.setCore 0 { item := some x, ctx := k, owner := some x.inst }

/-- Register state with `v` in g5 and g6 zero. -/
def g5 (v : Nat) : Ctx := Ctx.wg {} 5 (BitVec.ofNat 64 v)

/-- The command comes from core 0. -/
abbrev on0 : Issue := { core := 0 }

/-! ### Chapter 04 -/


/-- A program of one operation and a NOP. -/
def prog (op : Op) : Item := chainOf (encode op ++ [0x08000000])

/-- Core 0 stands before `op` with register state `k`; `op` may issue and the NOP follows it in the code. -/
abbrev Ready (op : Op) (len : Nat := 1) (k : Ctx := {}) : Prop :=
  CoreReady (running (prog op) k) on0 op (prog op) len ∧ StaysInCode (running (prog op) k) on0 (prog op) len

theorem witness_RegisterOperationResults :
    Instr.op? (.sra on0 3 1 2) = some (on0, .reg .sra 3 1 2) ∧ Ready (.reg .sra 3 1 2) ∧
    Instr.op? (.clz on0 0 5) = some (on0, .reg .clz 0 5 0) ∧ Ready (.reg .clz 0 5 0) := by
  dsimp only [Ready, CoreReady, StaysInCode]; and_intros <;> decide +kernel

theorem witness_MultiplyDivideResults :
    Instr.op? (.div on0 3 1 2) = some (on0, .mul .div 3 1 2) ∧ Ready (.mul .div 3 1 2) := by
  dsimp only [Ready, CoreReady, StaysInCode]; and_intros <;> decide +kernel

theorem witness_ImmediateOperationResults :
    Instr.op? (.addi on0 3 1 false 0xFFFF) = some (on0, .imm .addi 3 1 false 0xFFFF) ∧ Ready (.imm .addi 3 1 false 0xFFFF) ∧
    Instr.op? (.lih on0 3 1 true 0xFFFFFFFF) = some (on0, .imm .lih 3 1 true 0xFFFFFFFF) ∧
    Ready (.imm .lih 3 1 true 0xFFFFFFFF) 2 ∧
    Instr.op? (.srai on0 3 1 63) = some (on0, .sh .srai 3 1 63) ∧ Ready (.sh .srai 3 1 63) := by
  dsimp only [Ready, CoreReady, StaysInCode]; and_intros <;> decide +kernel

/-- Hypotheses of a memory instruction that reaches its space. -/
abbrev Access (sp : Space) (st : Bool) (wd : Width) (v : Nat) (x : Item) : Prop :=
  let s := running x (g5 v)
  CoreReady s on0 (.mem sp st wd 6 5 false 0) x 1 ∧ StaysInCode s on0 x 1 ∧
    Reaches s 0 x sp st (effAddr s 0 5 false 0) (Width.bytes wd) ∧
    bytesBusy s 0 (rangeOf sp (effAddr s 0 5 false 0) (Width.bytes wd)) = false

/-- A program of domain 0, which is privileged. -/
def privileged (x : Item) : Item := { x with image := x.image.map fun m => { m with dom := 0 } }

/-- The last doubleword of every space that a load reads, and of the crew scratch for a privileged program. -/
theorem witness_LoadsReadTheirSpace :
    Access .ldm false .d 65528 (prog (.mem .ldm false .d 6 5 false 0)) ∧
    Access .req false .d 0 (prog (.mem .req false .d 6 5 false 0)) ∧
    Access .con false .b 7 (prog (.mem .con false .b 6 5 false 0)) ∧
    Access .scr false .d 1048568 (privileged (prog (.mem .scr false .d 6 5 false 0))) := by
  dsimp only [Access, CoreReady, StaysInCode, Reaches]; and_intros <;> decide +kernel

theorem witness_StoresWriteTheirSpace :
    Access .ldm true .b 65535 (prog (.mem .ldm true .b 6 5 false 0)) ∧
    Access .rpl true .d 56 (prog (.mem .rpl true .d 6 5 false 0)) ∧
    Access .scr true .w 1048572 (privileged (prog (.mem .scr true .w 6 5 false 0))) ∧
    Mem.wf (running (chainOf []) (g5 0)).cores[0].ldm = true := by
  dsimp only [Access, CoreReady, StaysInCode, Reaches]; and_intros <;> decide +kernel

theorem witness_BranchesGoWhereTheySay :
    Instr.op? (.beq on0 1 2 false 1) = some (on0, .br .eq 1 2 false 1) ∧ Ready (.br .eq 1 2 false 1) ∧
    rd (running (prog (.br .eq 1 2 false 1))) 0 1 = rd (running (prog (.br .eq 1 2 false 1))) 0 2 ∧
    InCode (prog (.br .eq 1 2 false 1)) (immInt false 1) ∧
    Ready (.br .ltu 5 2 true 0xFFFFFFFE) 2 (g5 1) ∧ ¬(rd (running (chainOf []) (g5 1)) 0 5).toNat < 0 := by
  dsimp only [Ready, CoreReady, StaysInCode, InCode]; and_intros <;> decide +kernel

theorem witness_JumpsAndCallsTransfer :
    Ready (.jmp false 1) ∧ Ready (.jmp true 0) ∧ InCode (prog (.jmp false 1)) 1 ∧ InCode (prog (.jmp true 0)) 0 ∧
    Ready (.jr 5) 1 (g5 1) ∧ Ready (.callr 5) 1 (g5 0) ∧ InCode (prog (.jr 5)) (rd (running (prog (.jr 5)) (g5 1)) 0 5).toNat ∧
    Ready .ret 1 { stack := [1] } ∧ InCode (prog .ret) 1 := by
  dsimp only [Ready, CoreReady, StaysInCode, InCode]; and_intros <;> decide +kernel

theorem witness_LoopsCountDown :
    CoreReady (running (prog (.loop 5 2)) (g5 1)) on0 (.loop 5 2) (prog (.loop 5 2)) 1 ∧
    rd (running (prog (.loop 5 2)) (g5 1)) 0 5 ≠ 0 ∧ 0 + (2 : BitVec 16).toNat - 1 < (prog (.loop 5 2)).code.length ∧
    rd (running (chainOf [0x38050002, 0x08000000, 0x08000000])) 0 5 = 0 ∧
    InCode (chainOf [0x38050002, 0x08000000, 0x08000000]) 2 ∧
    Ready .nop 1 { loop := some { count := 2, top := 0, last := 0 } } ∧
    Ready .nop 1 { loop := some { count := 1, top := 0, last := 0 } } ∧ Ready .nop := by
  dsimp only [Ready, CoreReady, StaysInCode, InCode]; and_intros <;> decide +kernel

/-- An instance that answers gives some bytes. -/
theorem generates {s : State} {n len : Nat} (h : (drbgDraw s n len).isSome = true) : ∃ b, Generates s n len b := by
  obtain ⟨r, hr⟩ := Option.isSome_iff_exists.mp h
  exact ⟨r.1, r.2, hr⟩

/-- So does a draw that is granted. -/
theorem draws {s : State} {w : Wire} {n : Nat} (h : (sysDraw s w n).isSome = true) : ∃ b, Draws s w n b := by
  obtain ⟨r, hr⟩ := Option.isSome_iff_exists.mp h
  exact ⟨r.1, r.2, hr⟩

/-! ### Chapter 05 -/

/-- A unit whose engines are online, whose DRBG instances serve and which is in service. -/
def unit : State :=
  { State.reset with
    cph := Vector.replicate 16 { online := true }
    hsh := Vector.replicate 16 { online := true }
    cvu := Vector.replicate 9 { online := true }
    bne := { engines := Vector.replicate 16 { online := true } }
    lte := { engines := Vector.replicate 8 { online := true } }
    rng := { drbg := Vector.replicate 9 { state := .serving } }
    lcf := { stage := 9, running := true }
    prl := { state := .single, fence := true }
    ksc := { loaded := true, rootOk := true, kRecord := some (zeros 32), kJournal := some (zeros 32) }
    pwr := { mainPower := true, vmainOk := true, pwrGood := true, domains := List.range 48 }
    regs := [(winBase 4 0 + 4, 1), (winBase 5 0 + 4, 1), (winBase 6 0 + 4, 1), (winBase 7 0 + 4, 1), (winBase 8 0 + 4, 1), (winBase 9 0 + 4, 1)] }

/-- `unit` with chain `x` on core 0, register state `k` and LDM `m`. -/
def busy (x : Item) (k : Ctx := {}) (m : Memory := []) (s : State := unit) : State :=
  s.setCore 0 { item := some x, ctx := k, owner := some x.inst, ldm := m }

/-- A memory that holds byte strings at their offsets. -/
def mem (l : List (Nat × List Byte)) : Memory := l.foldl (fun m w => Mem.write m w.1 w.2) []

/-- Bytes of a buffer reference in LDM (R217). -/
def ref (off len : Nat) : List Byte := leBytes 8 (off + len * 2 ^ 32)

/-- A key of algorithm `a` that every engine and usage may use, not persisted. -/
def key (a : Nat) : KeyRec :=
  { name := { dom := 1, idx := 0, gen := 0, uid := 1 }
    attrs := { alg := a, size := if a = 6 then 256 else 0, usage := 0x3FF, engines := 0x1F, exportable := true
               notAfter := 2 ^ 64 - 1 }, material := zeros 16 }

/-- g5 holds `v`, k1 the key `y`. -/
def kctx (v : Nat) (y : KeyRec) : Ctx := (g5 v).wk 1 (some y)

/-- `op` may issue on `busy (prog op) k m s` and a NOP follows it. -/
abbrev Issues (op : Op) (k : Ctx) (m : Memory) (s : State := unit) (x : Item := prog op) : Prop :=
  CoreReady (busy x k m s) on0 op x 1 ∧ StaysInCode (busy x k m s) on0 x 1

/-- The state in which it acts. -/
abbrev acting (op : Op) (k : Ctx) (m : Memory) (s : State := unit) (x : Item := prog op) : State :=
  issueSt (busy x k m s) on0

/-- ECB of one block from LDM 128 to 256. -/
def ecbMem : Memory := mem [(64, leBytes 8 1 ++ ref 128 16 ++ ref 256 16)]

/-- KMAC of 16 bytes into 32. -/
def kmacMem : Memory := mem [(64, leBytes 4 0x28 ++ leBytes 4 32 ++ ref 128 16 ++ ref 256 32)]

/-- SHA-256 of no bytes. -/
def hashMem : Memory := mem [(64, leBytes 8 1 ++ ref 128 0 ++ ref 256 32)]

theorem witness_TicketInstructionsQueueTheirJob :
    (let op := Op.key .ciph 0 1 5 6; let k := kctx 64 (key 1); let u := acting op k ecbMem
     let b := parseCiph (blockAt u 0 5 64)
     Issues op k ecbMem ∧ (prog op).tickets.length < 32 ∧
       BlockReady u 0 (prog op) 5 64 (fun b => let p := parseCiph b; (ciphReads p).map (·, false) ++ (ciphWrites p).map (·, true)) ∧
       b.mode ≠ 11 ∧ ciphCheck u (prog op) b ((u.core 0).ctx.rk 1) none = 0 ∧ chooseEngine u .cipher 0 = .engine 0) ∧
    (let op := Op.key .kmac 0 1 5 6; let k := kctx 64 (key 6); let u := acting op k kmacMem
     let b := parseCiph (blockAt u 0 5 64)
     Issues op k kmacMem ∧
       BlockReady u 0 (prog op) 5 64 (fun b => let p := parseCiph b; (kmacReads p).map (·, false) ++ [(p.dst, true)]) ∧
       macCheck u (kmacFieldsOk b) b ((u.core 0).ctx.rk 1) uMacGen = 0 ∧ chooseEngine u .hash 0 = .engine 0) ∧
    (let op := Op.svc .hash 6 5 0; let k := g5 64; let u := acting op k hashMem; let b := blockAt u 0 5 32
     Issues op k hashMem ∧ BlockReady u 0 (prog op) 5 32 (fun b => [(refAt b 8, false), (refAt b 16, true)]) ∧
       locked u = false ∧ fieldAt b 0 1 = 1 ∧ rsvdOk b 1 7 = true ∧ rsvdOk b 24 8 = true ∧ (refAt b 8).valid = true ∧
       (refAt b 16).valid = true ∧ (refAt b 8).len ≤ 1048576 ∧ digestLen 1 ≤ (refAt b 16).len ∧
       partOverlap (refAt b 16) (refAt b 8) = false ∧ chooseEngine u .hash 0 = .engine 0) ∧
    (let op := Op.svc .cvupd 6 0 5; let k := g5 64; let m := mem [(64, ref 65536 0)]; let u := acting op k m
     Issues op k m ∧ BlockReady u 0 (prog op) 5 8 (fun blk => [(refAt blk 0, false)]) ∧ locked u = false ∧
       (rd u 0 0).toNat ≤ 1 ∧ (refAt (blockAt u 0 5 8) 0).valid = true ∧ chooseEngine u .check 0 = .engine 0) := by
  dsimp only [Issues, CoreReady, StaysInCode, BlockReady]; and_intros <;> decide +kernel


/-- `x` with one ticket. -/
def ticketed (x : Item) (k : Ticket) : Item := { x with tickets := [k] }

theorem witness_FailedIssueStillGivesATicket :
    (let op := Op.svc .hash 6 5 0; let m := mem [(64, leBytes 8 0x15)]; let u := acting op (g5 64) m
     Issues op (g5 64) m ∧ BlockReady u 0 (prog op) 5 32 (fun b => [(refAt b 8, false), (refAt b 16, true)]) ∧
       locked (busy (prog op) (g5 64) m) = false ∧ hashAlg (fieldAt (blockAt u 0 5 32) 0 1) = false) ∧
    (let x := ticketed (chainOf []) { num := 5, fail := some St.paramInvalid }
     ((busy x).core 0).item = some x ∧ 5 / 2 ^ 60 ≤ 3 ∧
       (∀ y ∈ liveChains (busy x), y.serial = x.serial ∨ ∀ u ∈ y.tickets, u.num ≠ 5) ∧
       ∀ y ∈ liveChains (busy x), y.serial = x.serial → y = x) := by
  dsimp only [Issues, CoreReady, StaysInCode, BlockReady]; and_intros <;> decide +kernel

theorem witness_ResultInstructionsLeaveAResultPending :
    (let op := Op.key .macv 0 1 5 6; let k := kctx 64 (key 6)
     let m := mem [(64, leBytes 8 0x20 ++ ref 128 16 ++ zeros 24 ++ ref 256 32)]; let u := acting op k m
     let b := parseCiph (blockAt u 0 5 64)
     Issues op k m ∧ BlockReady u 0 (prog op) 5 64 (fun b => (macvReads (parseCiph b)).map (·, false)) ∧
       macCheck u (macvFieldsOk b ((u.core 0).ctx.rk 1) && decide (b.mode ≠ 0)) b ((u.core 0).ctx.rk 1) uMacVerify = 0 ∧
       chooseEngine u (modeKind b.mode) 0 = .engine 0) ∧
    (let op := Op.svc .cvset 6 0 5; let m := mem [(64, leBytes 8 64 ++ leBytes 8 1)]; let u := acting op (g5 64) m
     Issues op (g5 64) m ∧ BlockReady u 0 (prog op) 5 40 (fun _ => []) ∧ (rd u 0 0).toNat ≤ 1 ∧
       (parseCv (blockAt u 0 5 40)).isSome = true ∧ cvBusy u 0 (rd u 0 0).toNat = false) ∧
    (let op := Op.svc .cvget 6 5 0; let u := acting op (g5 257) []
     Issues op (g5 257) [] ∧ (rd u 0 5).toNat = 256 + 1 ∧ cvBusy u 0 1 = false) ∧
    (let op := Op.svc .cvget 6 5 0; let u := acting op (g5 1) []
     Issues op (g5 1) [] ∧ (rd u 0 5).toNat = 1 ∧ cvBusy u 0 1 = false) ∧
    (let op := Op.svc .cvput 6 5 5; let u := acting op (g5 1) []
     Issues op (g5 1) [] ∧ (rd u 0 5).toNat ≤ 1 ∧ cvBusy u 0 (rd u 0 5).toNat = false) ∧
    (let op := Op.svc .rng 6 0 5; let u := acting op (g5 4096) []
     Issues op (g5 4096) [] ∧ 1 ≤ (rd u 0 5).toNat ∧ (rd u 0 5).toNat ≤ 4096 ∧
       (rd u 0 0).toNat + (rd u 0 5).toNat ≤ 65536 ∧ bytesBusy u 0 (rangeOf .ldm (rd u 0 0).toNat (rd u 0 5).toNat) = false) ∧
    Issues (.svc .time 30 0 0) {} [] := by
  dsimp only [Issues, CoreReady, StaysInCode, BlockReady]; and_intros <;> decide +kernel

theorem witness_WaitAndStatWriteTheirRegister :
    (let op := Op.svc .wait 6 5 0; let x := ticketed (prog op) { num := 9, done := some 0 }; let s := busy x (g5 9)
     Issues op (g5 9) [] unit x ∧ (rd s 0 5).toNat / 2 ^ 60 ≠ 4 ∧ (rd s 0 5).toNat / 2 ^ 60 ≠ 5 ∧
       x.tickets.find? (fun k => k.num == (rd s 0 5).toNat) = some { num := 9, done := some 0 }) ∧
    Issues (.stat 6 10) {} [] ∧ Issues (.stat 6 0xFFFF) {} [] := by
  dsimp only [Issues, CoreReady, StaysInCode]; and_intros <;> decide +kernel

/-- A persisted key of domain 1 in the committed state, with room for it in the cache. -/
def stored : KeyRec := { key 1 with name := { dom := 1, idx := 1, gen := 1 } }

/-- `unit` with the key in its store. -/
def withKeys : State := { unit with ksc := { unit.ksc with base := { keys := [stored] } } }

/-- A block of `KATTR` for operation `n`. -/
def kattrMem (n : Nat) : Memory := mem [(64, leBytes 8 n ++ ref 128 64 ++ attrBytes (key 1).attrs)]

theorem witness_KeyInstructionsPendInOrder :
    (let op := Op.key .kload 2 0 5 6; let v := keyIdOf stored.name; let u := acting op (g5 v) [] withKeys
     Issues op (g5 v) [] withKeys ∧ locked u = false ∧ (nameOfId (rd u 0 5).toNat).dom = (prog op).imageDom ∧
       (nameOfId (rd u 0 5).toNat).idx ≠ 0 ∧
       (cfgAt withKeys (prog op).snap).keys.find? (fun k => k.name == nameOfId (rd u 0 5).toNat) = some stored ∧
       windowOk u stored.attrs = true ∧ policyOkFor u (cfgAt withKeys (prog op).snap) (prog op) stored = true ∧
       kscOn (busy (prog op) (g5 v) [] withKeys) = true ∧ txClosing (prog op) = false ∧
       (takeRoom (modCtx (countLoad u 0 [some stored] none) 0 fun y => y.wk 2 none) (prog op).inst stored).isSome = true) ∧
    (let op := Op.key .kgen 2 0 5 6; let m := mem [(64, attrBytes (key 1).attrs)]; let u := acting op (g5 64) m
     Issues op (g5 64) m ∧ BlockReady u 0 (prog op) 5 48 (fun _ => []) ∧
       parseAttrs ((blockAt u 0 5 48).take 32) = some (key 1).attrs ∧ rsvdOk (blockAt u 0 5 48) 40 8 = true ∧
       ¬(0x18 ≤ (key 1).attrs.alg ∧ (key 1).attrs.alg ≤ 0x1A) ∧
       unit.bin.lockNew = false ∧
       createCheck (countLoad (notEligible u 0) 0 [] (some (key 1).attrs)) (prog op) (key 1).attrs = 0) ∧
    (let op := Op.key .kattr 0 1 5 6; let k := kctx 64 (key 1); let u := acting op k (kattrMem 0); let b := blockAt u 0 5 48
     Issues op k (kattrMem 0) ∧
       BlockReady u 0 (prog op) 5 48 (fun b => if fieldAt b 0 1 = 0 then [(refAt b 8, true)] else []) ∧
       kattrShape b = true ∧ (u.core 0).ctx.rk 1 = some (key 1) ∧ fieldAt b 0 1 = 0 ∧ bytesBusy u 0 (refAt b 8) = false) ∧
    (let op := Op.key .kattr 0 1 5 6; let k := kctx 64 (key 1); let u := acting op k (kattrMem 1); let b := blockAt u 0 5 48
     Issues op k (kattrMem 1) ∧ kattrShape b = true ∧ fieldAt b 0 1 = 1 ∧ (key 1).name.idx = 0 ∧
       parseAttrs (slice b 16 32) = some (key 1).attrs ∧ narrows (key 1).attrs { (key 1).attrs with generated := false } = true) ∧
    (let op := Op.key .kattr 0 1 5 6; let k := kctx 64 (key 1); let m := mem [(64, leBytes 8 2)]; let u := acting op k m
     let b := blockAt u 0 5 48
     Issues op k m ∧ kattrShape b = true ∧ fieldAt b 0 1 = 2 ∧ (key 1).name.idx = 0) ∧
    (let op := Op.key .kattr 0 1 5 6; let k := kctx 64 stored; let x := { prog op with tx := some {} }
     let u := acting op k (kattrMem 1) unit x; let b := blockAt u 0 5 48
     Issues op k (kattrMem 1) unit x ∧ kattrShape b = true ∧ (u.core 0).ctx.rk 1 = some stored ∧ x.tx = some {} ∧
       stored.name.idx ≠ 0 ∧ fieldAt b 0 1 = 1 ∧ Tx.fits {} 64 = true ∧ parseAttrs (slice b 16 32) = some (key 1).attrs ∧
       narrows stored.attrs { (key 1).attrs with generated := stored.attrs.generated } = true) ∧
    (let op := Op.key .kattr 0 1 5 6; let k := kctx 64 stored; let x := { prog op with tx := some {} }
     let m := mem [(64, leBytes 8 2)]; let u := acting op k m unit x; let b := blockAt u 0 5 48
     Issues op k m unit x ∧ kattrShape b = true ∧ (u.core 0).ctx.rk 1 = some stored ∧ x.tx = some {} ∧
       stored.name.idx ≠ 0 ∧ fieldAt b 0 1 = 2 ∧ Tx.fits {} 32 = true ∧ stored.attrs.dual = false) ∧
    Issues (.key .kdrop 0 1 0 0) (kctx 0 (key 1)) [] := by
  dsimp only [Issues, CoreReady, StaysInCode, BlockReady]; and_intros <;> decide +kernel

/-- Derivation by KMAC from a label of 8 bytes. -/
def deriveMem : Memory := mem [(64, leBytes 8 2 ++ ref 256 8 ++ attrBytes (key 1).attrs)]

theorem witness_KeyEngineInstructionsSendAJob :
    (let op := Op.key .kderive 2 1 5 6; let k := kctx 64 (key 1); let u := acting op k deriveMem; let b := blockAt u 0 5 64
     Issues op k deriveMem ∧ BlockReady u 0 (prog op) 5 64 (fun b => [(refAt b 8, false)]) ∧
       bytesBusy u 0 (refAt b 8) = false ∧ (u.core 0).ctx.rk 1 = some (key 1) ∧ deriveAttrs b 1 = some (key 1).attrs ∧
       useCheck (some (key 1)) eKdf [uDerive] (deriveSuits (fieldAt b 0 1)) = 0 ∧
       bitsIn (key 1).attrs.usage (key 1).attrs.usage = true ∧
       createCheck (countLoad u 0 [some (key 1)] (some (key 1).attrs)) (prog op) (key 1).attrs = 0 ∧ chooseEngine u .hash 0 = .engine 0) ∧
    (let op := Op.key .kwrap 1 1 5 6; let k := kctx 64 (key 1)
     let m := mem [(64, leBytes 8 1 ++ ref 256 24)]; let u := acting op k m; let b := blockAt u 0 5 32
     Issues op k m ∧
       BlockReady u 0 (prog op) 5 32 (fun b => (refAt b 8, true) :: if fieldAt b 0 1 = 3 then [(refAt b 24, false)] else []) ∧
       bytesBusy u 0 (refAt b 8) = false ∧ fieldAt b 0 1 = 1 ∧ rsvdOk b 1 7 = true ∧ (refAt b 8).valid = true ∧
       useCheck (some (key 1)) eCph [uWrap] (wrapSuits 1) = 0 ∧ (key 1).attrs.exportable = true ∧
       kwLen (payloadOf (key 1)).length ≤ (refAt b 8).len ∧ 16 ≤ (payloadOf (key 1)).length ∧
       (payloadOf (key 1)).length % 8 = 0 ∧ chooseEngine u .cipher 0 = .engine 0) ∧
    (let op := Op.key .kunwrap 2 1 5 6; let k := kctx 64 (key 1)
     let m := mem [(64, leBytes 8 1 ++ ref 256 24 ++ zeros 8 ++ attrBytes (key 1).attrs)]; let u := acting op k m
     let b := blockAt u 0 5 56
     Issues op k m ∧ BlockReady u 0 (prog op) 5 56 (fun b => [(refAt b 8, false)]) ∧ bytesBusy u 0 (refAt b 8) = false ∧
       fieldAt b 0 1 = 1 ∧ rsvdOk b 1 7 = true ∧ rsvdOk b 16 8 = true ∧ (refAt b 8).valid = true ∧
       16 ≤ (refAt b 8).len ∧ (refAt b 8).len % 8 = 0 ∧ parseAttrs (slice b 24 32) = some (key 1).attrs ∧
       useCheck (some (key 1)) eCph [uUnwrap] (wrapSuits 1) = 0 ∧
       createCheck (countLoad u 0 [some (key 1)] (some (key 1).attrs)) (prog op) (key 1).attrs = 0 ∧ chooseEngine u .cipher 0 = .engine 0) := by
  dsimp only [Issues, CoreReady, StaysInCode, BlockReady]; and_intros <;> decide +kernel


/-- `unit` with `x` on core 0 and pending results. -/
def pendingOn (x : Item) (g : List PendG) (p : List PendK) (s : State := unit) : State :=
  s.setCore 0 { item := some x, pendG := g, pendK := p, owner := some x.inst }

/-- A pending KLOAD and a pending KGEN. -/
def pendLoad (w : Wait) : PendK := { op := .kload, kd := some 2, gs := 6, handle := some stored, wait := w }
def pendGen : PendK := { op := .kgen, kd := some 2, gs := 6, handle := some (key 1), wait := .drbg }

/-- An instance 3 of domain 1 with a queue 5 bound to image 1, which has one entry. -/
def share : Share :=
  { weight := 1, ports := 0x1F, sessions := 8, admits := 8, kcQuota := 16, c0Rate := 1, c0Burst := 1, bneCredits := 1
    lteCredits := 1, faultLimit := 1, faultWindow := 1 }

def image : Image :=
  { dom := 1, image := 1, version := 1, signer := 0, entries := [0], code := [0x08000000], const := [], digest := [] }

def config : Cfg :=
  { domains := [1], insts := [(3, { dom := 1, enabled := true, share := share })]
    queues := [(5, { inst := 3, replyCap := 64, depth := 4, budget := 100, c0Offset := 0 })]
    binds := [(5, (1, 1, 1))], images := [((1, 1, 1), [])], keys := [stored] }

def serving : State :=
  { unit with ksc := { unit.ksc with base := config, images := [image] }
              ins := [{ id := 3, state := .active }] }

theorem witness_PendingResultsAreWritten :
    (let p : PendG := { reg := 6, value := 5, second := some (7, 8), ldm := [(65535, [1])] }
     ((pendingOn (chainOf []) [p] []).core 0).item = some (chainOf []) ∧
       ((pendingOn (chainOf []) [p] []).core 0).pendG = [p] ∧ p.reg = 6 ∧ p.wait = .ready) ∧
    (let p : PendG := { reg := 6, rngLen := some (61440, 4096), wait := .drbg }; let s := pendingOn (chainOf []) [p] []
     (s.core 0).pendG = [p] ∧ p.wait = .drbg ∧ p.rngLen = some (61440, 4096) ∧ p.second = none ∧
       ∃ b, Generates s (crewOf 0) 4096 b) ∧
    (let p : PendG := { reg := 6, rngLen := some (0, 1), wait := .drbg }
     let s := pendingOn (chainOf []) [p] [] { State.reset with mer := { elapsed := 1600 } }
     (s.core 0).pendG = [p] ∧ p.wait = .drbg ∧ drbgReady s (crewOf 0) = false ∧ p.asked + 1600 ≤ s.mer.elapsed) ∧
    (let s := pendingOn (chainOf []) [] [pendLoad .fill] { unit with
      ksc := { unit.ksc with cache := [{ name := stored.name, inst := 3, used := 0, slots := [{ value := [], mask := [], masked := 0 }] }] } }
     (s.core 0).pendK = [pendLoad .fill] ∧ (pendLoad .fill).wait = .fill ∧ MemEvent.readable .corrected = true ∧
       MemEvent.readable (.line 3 0x1000) = false ∧ memWaits s (.line 3 0x1000) = false ∧
       memWaits { s with mec := { regions := [(3, { poison := [(0x1000, 8)] })], sweeps := [{ region := 3, rebuild := true }] } } (.line 3 0x1007) = true ∧
       kscOn s = true ∧ kscYields s 0 (fun q => q.wait == .fill) = false ∧
       resident s stored.name = false ∧ s.ksc.kRecord.isSome = true ∧ (∃ e ∈ s.ksc.cache, e.name = stored.name) ∧
       SysServes s (entriesOf stored)) ∧
    (let s := pendingOn (chainOf []) [] [pendLoad .ready]
     (s.core 0).pendK = [pendLoad .ready] ∧ (pendLoad .ready).status = 0 ∧ kscOn s = true ∧
       kscYields s 0 (fun q => q.wait == .ready || q.wait == .drbg) = false) ∧
    (let s := pendingOn (chainOf []) [] [pendGen] serving
     (s.core 0).pendK = [pendGen] ∧ kscOn s = true ∧
       kscYields s 0 (fun q => q.wait == .ready || q.wait == .drbg) = false ∧
       (∃ b, Generates s (crewOf 0) (secretLen (key 1).attrs.alg (key 1).attrs.size) b) ∧ SysServes s (1 + entriesOf (key 1)) ∧
       (∃ b, Draws s .ksc 5 b) ∧
       crewOf 0 < s.variant.crews ∧ s.ksc.cache.any (fun e => e.name == (key 1).name) = false ∧
       entriesOf (key 1) ≤ freeFor s.variant (cfgV s) s.ksc.cache 3) := by
  dsimp only [SysServes, Serves]
  and_intros <;> first | decide +kernel | exact generates (by decide +kernel) | exact draws (by decide +kernel)

/-- A call block of operation `op` with inputs of the given lengths at 1024, 8192 and 16384 and `out` bytes of output. -/
def callMem (op a b c out : Nat) : Memory :=
  mem [(64, leBytes 8 op ++ ref 1024 a ++ ref 8192 b ++ ref 16384 c ++ ref 32768 out), (1024, [7]), (8192, [3]), (16384, [5])]

/-- Hypotheses that every call shares, for a block at 64. -/
abbrev CallReady (op : Op) (k : Ctx) (m : Memory) : Prop :=
  let u := acting op k m serving
  Issues op k m serving ∧ (prog op).tickets.length < 32 ∧ BlockReady u 0 (prog op) 5 64 callUses ∧
    (∀ r ∈ (callRefs (blockAt u 0 5 64)).take 3, r.valid = true → bytesBusy u 0 r = false) ∧ locked u = false

/-- Block and inputs as the call reads them. -/
abbrev callBlk (op : Op) (k : Ctx) (m : Memory) : List Byte := blockAt (acting op k m serving) 0 5 64
abbrev callIns (op : Op) (k : Ctx) (m : Memory) : List (List Byte) :=
  ((callRefs (callBlk op k m)).take 3).map fun r => if r.valid then readRef (acting op k m serving) 0 (prog op) r else []

/-- ECDSA on P-256, MODMUL of one byte, deterministic ML-DSA-44 signature and verification under a stored public key. -/
theorem witness_CallsQueueAPoolJob :
    (let op := Op.key .pkKeyed 0 1 5 6; let k := kctx 64 (key 0x10); let m := callMem 0x20 32 0 0 64
     CallReady op k m ∧ bneKind (fieldAt (callBlk op k m) 0 2) = some (.ecSign 0) ∧
       screenBne (acting op k m serving) 3 true (some (key 0x10)) (callBlk op k m) (callIns op k m) = 0) ∧
    (let op := Op.key .pkPublic 0 0 5 6; let k := g5 64; let m := callMem 1 1 1 1 1
     CallReady op k m ∧ bneKind (fieldAt (callBlk op k m) 0 2) = some .modMul ∧
       screenBne (acting op k m serving) 3 false none (callBlk op k m) (callIns op k m) = 0) ∧
    (let op := Op.key .ltKeyed 0 1 5 6; let k := kctx 64 (key 0x28); let m := callMem 0x208 8 0 0 2420
     CallReady op k m ∧ lteKind (fieldAt (callBlk op k m) 0 2) = some (.signDet 0) ∧
       screenLte (acting op k m serving) 3 true (some (key 0x28)) false (callBlk op k m) (callIns op k m) = 0) ∧
    (let op := Op.key .ltPublic 0 0 5 6; let k := g5 64; let m := callMem 0x20C 8 2420 1312 0
     CallReady op k m ∧ lteKind (fieldAt (callBlk op k m) 0 2) = some (.verify 0) ∧
       screenLte (acting op k m serving) 3 false none false (callBlk op k m) (callIns op k m) = 0) := by
  dsimp only [CallReady, Issues, CoreReady, StaysInCode, BlockReady]; and_intros <;> decide +kernel


/-- g5 and g6. -/
def g56 (v w : Nat) : Ctx := (g5 v).wg 6 (BitVec.ofNat 64 w)

/-- An item of a host request on session 9 whose chain has committed CSN 4. -/
def hosted (x : Item) : Item := { x with origin := .host, sess := some 9, committed := some 4, inst := 3, dom := 1 }

theorem witness_EndingsFreeTheCore :
    (let op := Op.svc .reply 0 5 0; let x := hosted (prog op); let s := busy x (g5 0x03FF0040) [] serving
     Issues op (g5 0x03FF0040) [] serving x ∧ settled (issueSt s on0) 0 = true ∧ (rd s 0 5).toNat < 2 ^ 32 ∧
       0x0200 ≤ (rd s 0 5).toNat / 65536 ∧ (rd s 0 5).toNat / 65536 ≤ 0x03FF ∧ (rd s 0 5).toNat % 65536 ≤ x.replyCap ∧
       x.origin = .host ∧ x.sess = some 9 ∧ x.committed = some 4 ∧ s.ksc.v < 4 ∧ s.prl.joined = false) ∧
    (let op := Op.svc .done 0 0 0; let x := hosted (prog op)
     Issues op {} [] serving x ∧ settled (acting op {} [] serving x) 0 = true) ∧
    (let op := Op.svc .cont 0 5 6; let x := ticketed (prog op) { num := 4 * 2 ^ 60 + 1 }
     let k := g56 (4 * 2 ^ 60 + 1) 4096; let s := busy x k [] serving
     Issues op k [] serving x ∧ settled (issueSt s on0) 0 = true ∧ (rd s 0 6).toNat ≤ 4096 ∧
       (rd s 0 5).toNat = 4 * 2 ^ 60 + 1 ∧ (4 * 2 ^ 60 + 1) / 2 ^ 60 = 4 ∧ (∀ j ∈ x.tickets, j.num = 4 * 2 ^ 60 + 1 → j.done = none) ∧
       (∀ j ∈ x.tickets, j.bound = false) ∧
       beyondCarry (issueSt s on0) (4 * 2 ^ 60 + 1) (64 * ceilDiv (rd s 0 6).toNat 64) = false ∧ contUse s < 262144 ∧
       Mem.wf (s.core 0).ldm = true) := by
  dsimp only [Issues, CoreReady, StaysInCode]; and_intros <;> decide +kernel

/-- A block of POST and DELAY for queue 5, entry 0, class 3. -/
def postMem : Memory := mem [(64, leBytes 2 5 ++ leBytes 2 0 ++ leBytes 4 3 ++ zeros 8 ++ ref 256 8)]

/-- Hypotheses that POST and DELAY share. -/
abbrev PostReady (op : Op) (k : Ctx) (x : Item) : Prop :=
  let u := acting op k postMem serving x
  Issues op k postMem serving x ∧ BlockReady u 0 x 5 32 (fun b => [(refAt b 16, false)]) ∧
    bytesBusy u 0 (refAt (blockAt u 0 5 32) 16) = false ∧ postCheck u x (blockAt u 0 5 32) = 0

theorem witness_PostAndDelayEnqueueOneItem :
    (let op := Op.svc .post 6 5 0; PostReady op (g5 64) (prog op) ∧ (prog op).tx = none ∧ (prog op).committed = none ∧
       (prog op).sample = none) ∧
    (let op := Op.svc .delay 7 5 6; PostReady op (g56 64 (2 ^ 24 * 16000 - 1)) (prog op) ∧
       (rd (busy (prog op) (g56 64 (2 ^ 24 * 16000 - 1)) postMem serving) 0 6).toNat < serving.mer.t + 2 ^ 24 * 16000 ∧
       delayUse serving < 1048576) := by
  dsimp only [PostReady, Issues, CoreReady, StaysInCode, BlockReady]; and_intros <;> decide +kernel

theorem witness_PostsInATransactionAreReserved :
    let op := Op.svc .post 6 5 0; let x := { prog op with tx := some {} }
    PostReady op (g5 64) x ∧ x.tx = some {} ∧ Tx.closing {} = false ∧ x.sample = none := by
  dsimp only [PostReady, Issues, CoreReady, StaysInCode, BlockReady]; and_intros <;> decide +kernel

/-- A record that enables instance 3. -/
def insRec : List Byte := leBytes 2 0x0712 ++ leBytes 2 24 ++ leBytes 4 3 ++ zeros 8 ++ leBytes 8 1

theorem witness_JournalInstructions :
    (let op := Op.svc .jbegin 6 0 0; Issues op {} [] ∧ (prog op).tx = none) ∧
    (let op := Op.svc .jput 7 5 6; let x := { privileged (prog op) with tx := some {} }; let m := mem [(64, insRec)]
     let u := acting op (g56 64 24) m serving x
     Issues op (g56 64 24) m serving x ∧ (rd u 0 5).toNat % 8 = 0 ∧ (rd u 0 5).toNat + (rd u 0 6).toNat ≤ 65536 ∧
       bytesBusy u 0 (rangeOf .ldm (rd u 0 5).toNat (rd u 0 6).toNat) = false ∧ x.priv = true ∧ x.tx = some {} ∧
       16 ≤ (rd u 0 6).toNat ∧ (rd u 0 6).toNat ≤ 1024 ∧ Tx.fits {} (rd u 0 6).toNat = true ∧
       Tx.closing {} = false ∧
       parseJput (Mem.read m 64 24) = some (.adminState 3 true) ∧
       checkRecord u (cfgAt u x.snap) (.adminState 3 true) (txCfg u x.snap {}) = 0 ∧ quorumOf (.adminState 3 true) = none) ∧
    (let op := Op.svc .jcommit 6 0 0; let j : Tx := { recs := [{ tag := 1, recd := .keyDelete stored.name, size := 32 }] }
     let x := { prog op with tx := some j, origin := .posted }
     Issues op {} [] serving x ∧ ((busy x {} [] serving).core 0).pendK = [] ∧ j.recs ≠ [] ∧ j.ceremonies = [] ∧
       j.closing = false ∧ x.sample = none ∧ kscOn (busy x {} [] serving) = true ∧ x.origin ≠ .host ∧ serving.prl.state ≠ .divergent ∧ serving.ksc.readOnly = false ∧
       conflicts serving x.snap (j.recs.map (·.recd)) = false ∧ serving.prl.joined = false ∧ serving.prl.peerJoining = false) ∧
    (let op := Op.svc .jabort 0 0 0; let x := { prog op with tx := some {} }
     Issues op {} [] unit x ∧ ((busy x).core 0).pendK = [] ∧ x.tx = some {} ∧ Tx.closing {} = false) := by
  dsimp only [Issues, CoreReady, StaysInCode]; and_intros <;> decide +kernel

theorem witness_ProgramFaultsEndTheChain :
    (let x := { chainOf [0x08000000] with budget := 3, strokes := 3 }; ((busy x).core 0).item = some x ∧ x.budget ≤ x.strokes) ∧
    (let x := chainOf [0x0000001D]; ((busy x).core 0).item = some x ∧ x.strokes < x.budget ∧ decodeAt x.code 0 = .reserved ∧
       MemEvent.readable (fetchEvent (busy x) on0) = true) ∧
    (let op := Op.jmp true 0; Issues op { stack := List.range 16 } [] ∧ 16 ≤ (List.range 16).length) ∧
    Issues (.callr 5) { stack := List.range 16 } [] ∧ Issues .ret {} [] ∧
    (let op := Op.jmp false 2; Issues op {} [] ∧ ¬InCode (prog op) 2) ∧
    (let op := Op.mem .ldm true .d 6 5 false 0
     Issues op (g5 65529) [] ∧ 65536 < effAddr (busy (prog op) (g5 65529)) 0 5 false 0 + 8) := by
  dsimp only [Issues, CoreReady, StaysInCode, InCode]; and_intros <;> decide +kernel


/-! ### Chapters 10 to 12 -/

/-- A job of the chain `chainOf []` on core 0, and an engine that runs or queues jobs. -/
def job (op : JobOp) (key : Option KeyRec := none) (held : Bool := false) : SymJob :=
  { num := 9, core := 0, serial := 7, inst := 3, op := op, key := key, held := held }

/-- `busy` with engine 0 of a kind replaced. -/
def withEngine (k : SymKind) (x : SymEngine) (m : Memory := []) : State :=
  setEngine (busy (ticketed (chainOf []) { num := 9 }) {} m) k 0 { x with online := true }

/-- An ECB block and a GCM encryption. -/
def ecbBlk : CiphBlk := { mode := 1, src := { off := 128, len := 16 }, dst := { off := 65520, len := 16 } }
def gcmBlk : CiphBlk := { mode := 5, src := { off := 128, len := 16 }, dst := { off := 256, len := 16 } }

theorem witness_EnginesStartYieldAndResume :
    (let j := job (.ciph ecbBlk none) (some (key 1)); let s := withEngine .cipher { queue := [j] }; let x := engineOf s .cipher 0
     x.running = none ∧ x.recovering = false ∧ nextJob s x = some j ∧ jobBlocked s j = false ∧ needsCtr j = false ∧
       needsRand j = false) ∧
    (let j := job (.ciph gcmBlk none) (some (key 1)); let s := withEngine .cipher { queue := [j] }; let x := engineOf s .cipher 0
     nextJob s x = some j ∧ jobBlocked s j = false ∧ needsCtr j = true ∧ j.key = some (key 1) ∧ (key 1).name.idx = 0 ∧
       (counterOf s (key 1).name).next < 2 ^ 40) ∧
    (let j := job (.ciph { ecbBlk with mode := 11, aux := 16 } none) (some (key 1)); let s := withEngine .cipher { queue := [j] }
     let x := engineOf s .cipher 0
     x.online = true ∧ nextJob s x = some j ∧ jobBlocked s j = false ∧ needsCtr j = false ∧ needsRand j = true ∧
       ∃ r, Generates s (engineCrew .cipher 0) 16 r) ∧
    (let j := job (.hash 1 32 { len := 65536 } { off := 128, len := 32 }); let h := job (.hash 1 32 {} {}) none true
     let s := { withEngine .hash { running := some j, queue := [h] } with mer := { elapsed := 88 } }; let x := engineOf s .hash 0
     let q := 128 * (jobAt s j / 128)
     yieldBoundary s.pwr.effective = some 128 ∧ x.running = some j ∧ j.held = false ∧ noYield j = false ∧
       x.queue.any (·.held) = true ∧ (s.core j.core).item.isSome = true ∧ j.base = 0 ∧ j.blocks = 0 ∧ 0 < q ∧
       jobBy j (s.mer.elapsed - 1) < q ∧ q < jobOps j) ∧
    (let j := job (.ciph ecbBlk none); let x := engineOf (withEngine .cipher { saved := [j] }) .cipher 0
     x.running = none ∧ x.saved = [j] ∧ x.recovering = false ∧ x.online = true ∧ x.queue.any (·.held) = false) := by
  and_intros <;> first | decide +kernel | exact generates (by decide +kernel)

theorem witness_JobsDeliverAtCompletion :
    (let j := job (.ciph ecbBlk none) (some (key 1))
     let s := withEngine .cipher { running := some j, keyReg := some (key 1) } (mem [(128, [1, 2])])
     (s.core 0).item = some (ticketed (chainOf []) { num := 9 }) ∧ (chainOf []).serial = j.serial ∧ j.scrub = false ∧
       j.status = 0 ∧ j.blocks = 0 ∧ j.out = none ∧ Mem.wf (s.core 0).ldm = true ∧ (engineOf s .cipher 0).running = some j ∧
       (engineOf s .cipher 0).keyReg = some (key 1) ∧ ecbBlk.mode = 1 ∧
       ecbBlk.dst.space = 0 ∧ ecbBlk.src.space = 0 ∧ ecbBlk.src.len ≤ ecbBlk.dst.len) ∧
    (let j := job (.hash 1 32 { off := 0, len := 64 } { off := 65504, len := 32 }); let s := withEngine .hash { running := some j }
     (engineOf s .hash 0).running = some j ∧ Mem.wf (s.core 0).ldm = true) ∧
    (let j := job (.cvupd 1 { off := 65536, len := 0 }); let s := withEngine .check { running := some j }
     (engineOf s .check 0).running = some j ∧ Mem.wf (s.core 0).ldm = true) := by
  and_intros <;> decide +kernel

theorem witness_EngineFaultsAndRecovery :
    (let j := job (.ciph ecbBlk none); let s := withEngine .cipher { running := some j }; let x := engineOf s .cipher 0
     x.recovering = false ∧ x.running = some j ∧ j.scrub = false ∧
       (s.core 0).item = some (ticketed (chainOf []) { num := 9 }) ∧ (chainOf []).serial = j.serial ∧ x.online = true) ∧
    (∀ b, (job (.ciph ecbBlk none)).op ≠ .macv b) ∧ (∀ n w a b, (job (.ciph ecbBlk none)).op ≠ .keyInstr n w a b) ∧
    (engineOf (withEngine .check { recovering := true }) .check 0).recovering = true := by
  refine ⟨?_, (fun _ h => nomatch h), (fun _ _ _ _ h => nomatch h), by decide +kernel⟩
  and_intros <;> decide +kernel

/-- A pool job of operation `op`. -/
def call (op : Nat) (key : Option KeyRec) (ins : List (List Byte)) (num : Nat := 4 * 2 ^ 60 + 1) : PoolJob :=
  { num := num, core := 0, serial := 7, inst := 3, keyed := key.isSome, op := op, key := key, ins := ins, width := 8, slots := 4 }

/-- `serving` with the pools' queues and engine 0 of each. -/
def pools (bq lq : List PoolJob) (b l : PoolEngine) : State :=
  { serving with
    bne := { queue := bq, engines := vset (Vector.replicate 16 { online := true }) 0 { b with online := true } }
    lte := { queue := lq, engines := vset (Vector.replicate 8 { online := true }) 0 { l with online := true } }
    regs := [(winBase 8 0 + 4, 1), (winBase 9 0 + 4, 1)] }

/-- MODMUL of 7, 3, 5; deterministic ML-DSA-44 signing. -/
def mulJob : PoolJob := call 1 none [[7], [3], [5]]
def signJob (op : Nat := 0x208) : PoolJob := call op (some (key 0x28)) [[0]] (5 * 2 ^ 60 + 1)

theorem witness_PoolJobsLoadInOrder :
    (let big := { call 1 none [[7], [3], [5]] 1 with width := 1 + 64 * 64 }; let s := pools [big, mulJob] [signJob] {} {}
     (∀ i ∈ [big] ++ [], i.num ≠ mulJob.num) ∧ s.bne.queue = [big] ++ mulJob :: [] ∧ (∀ f, ¬BneTakes s big f) ∧
       BneTakes s mulJob 0 ∧ (∀ f < 0, ¬BneTakes s mulJob f)) ∧
    (let s := pools [] [signJob] {} {}
     s.bne.queue = [] ∧ s.lte.queue = signJob :: [] ∧ LteRoom s 0 ∧ (∀ f, LteRoom s f → cacheHit (lteOf s f) signJob = false) ∧
       ∀ f < 0, ¬LteRoom s f) := by
  refine ⟨⟨by decide +kernel, by decide +kernel, fun f h => ?_, by unfold BneTakes; decide +kernel, fun f h => by omega⟩,
    by decide +kernel, by decide +kernel, by unfold LteRoom; decide +kernel, fun f h => ?_, fun f h => by omega⟩
  · unfold BneTakes at h
    have h1 : f < 16 := h.1
    have : ∀ g < 16, ¬(1 + 64 * 64 ≤ 64 * slotLength (pools [{ call 1 none [[7], [3], [5]] 1 with width := 1 + 64 * 64 }, mulJob]
      [signJob] {} {}) g) := by decide +kernel
    exact this f h1 h.2.2.2.1
  · have h1 : f < 8 := h.1
    have : ∀ g < 8, cacheHit (lteOf (pools [] [signJob] {} {}) g) signJob = false := by decide +kernel
    exact this f h1


theorem witness_PoolJobsStart :
    (let s := pools [] [] { loaded := [mulJob] } {}
     (bneOf s 0).running = none ∧ (bneOf s 0).recovering = false ∧ (bneOf s 0).loaded = mulJob :: [] ∧ bneDraws mulJob = 0) ∧
    (let j := call 0x20 (some (key 0x10)) [zeros 32]; let s := pools [] [] { loaded := [j] } {}
     (bneOf s 0).loaded = j :: [] ∧ j.drawn = false ∧ bneDraws j ≠ 0 ∧ ∃ b, Draws s .bne (bneDraws j) b) ∧
    (let j := call 0x20 (some (key 0x10)) [zeros 32]; let s := { pools [] [] { loaded := [j], running := some mulJob } {} with rng := {} }
     (bneOf s 0).running ≠ none ∧ sysDraw s .bne (bneDraws j) = none) ∧
    (let j := call 0x20 (some (key 0x10)) [zeros 32]
     let s := { pools [] [] { loaded := [j] } {} with rng := {}, mer := { elapsed := 1600 } }
     (bneOf s 0).loaded = j :: [] ∧ bneDraws j ≠ 0 ∧ sysReady s = false ∧ j.aborted = false ∧ j.scrub = false ∧
       (bneOf s 0).first + 1600 ≤ s.mer.elapsed) ∧
    (let s := pools [] [] {} { loaded := [signJob], cache := List.replicate 8 { name := stored.name, changed := 0, filled := 0, used := 0 } }
     (lteOf s 0).running = none ∧ (lteOf s 0).recovering = false ∧ (lteOf s 0).loaded = signJob :: [] ∧
       lteDraws (lteOf s 0) signJob ≠ 0 ∧ needsMask (lteOf s 0) signJob = true ∧ (expansionTag signJob).isSome = true ∧
       ∃ b, Draws s .lte (lteDraws (lteOf s 0) signJob) b) ∧
    (let s := pools [] [] {} { loaded := [signJob], cache := [{ name := (key 0x28).name, changed := 0, filled := 0, used := 0 }] }
     (lteOf s 0).loaded = signJob :: [] ∧ cacheHit (lteOf s 0) signJob = true ∧ lteDraws (lteOf s 0) signJob = 0) ∧
    (let s := { pools [] [] {} { loaded := [signJob 0x204] } with rng := {}, mer := { elapsed := 1600 } }
     (lteOf s 0).loaded = signJob 0x204 :: [] ∧ lteDraws (lteOf s 0) (signJob 0x204) ≠ 0 ∧ sysReady s = false ∧
       sysDraw s .lte (lteDraws (lteOf s 0) (signJob 0x204)) = none ∧
       (signJob 0x204).aborted = false ∧ (signJob 0x204).scrub = false ∧ (lteOf s 0).first + 1600 ≤ s.mer.elapsed) := by
  and_intros <;> first | decide +kernel | exact draws (by decide +kernel)

/-- The base point of P-256, uncompressed (FIPS 186-5). -/
def p256Base : List Byte :=
  4 :: beBytes 64 0x6B17D1F2E12C4247F8BCE6E563A440F277037D812DEB33A0F4A13945D898C2964FE342E2FE1A7F9B8EE7EB4A7C0F9E162BCE33576B315ECECBB6406837BF51F5

/-- A derived key of 256 bits, to be written to k2. -/
def derivedSpec : Attrs := { (key 3).attrs with size := 0 }

/-- ECDH on P-256 with the base point, and ML-KEM-512 decapsulation; each with a result spec. -/
def ecdhJob : PoolJob := { call 0x28 (some (key 0x10)) [p256Base] with spec := some (2, derivedSpec) }
def decapsJob : PoolJob := { call 0x108 (some (key 0x20)) [zeros 768] (5 * 2 ^ 60 + 1) with spec := some (2, derivedSpec) }

/-- The chain of the pool jobs is on core 0. -/
def chained (s : State) (num : Nat) : State := s.setCore 0 { item := some (ticketed (chainOf []) { num := num }) }

/-- Job `j` with result `r` derives a key on `s`. -/
abbrev DerivesOn (s : State) (j : PoolJob) (r : PoolOut) : Prop :=
  r.status = 0 ∧ ∃ b, r.secret = some b ∧ ∃ x, Derives s j 2 x b

/-- A derivation whose point lies on its curve, and a decapsulation. -/
theorem witness_derivations :
    (let s := chained (pools [] [] { running := some ecdhJob } {}) ecdhJob.num
     (bneOf s 0).running = some ecdhJob ∧ Plain ecdhJob ∧ bneKind ecdhJob.op = some (.ecdh 0) ∧
       onCurve 0 p256Base = true ∧ DerivesOn s ecdhJob (bneResult (.ecdh 0) ecdhJob.key ecdhJob.ins ecdhJob.rand)) ∧
    (let s := chained (pools [] [] {} { running := some decapsJob }) decapsJob.num
     (lteOf s 0).running = some decapsJob ∧ Plain decapsJob ∧ lteKind decapsJob.op = some (.decaps 0) ∧
       DerivesOn s decapsJob (lteResult s (.decaps 0) decapsJob.key decapsJob.ins decapsJob.rand)) := by
  have h : onCurve 0 p256Base = true := by decide +kernel
  have e : bneResult (.ecdh 0) ecdhJob.key ecdhJob.ins ecdhJob.rand =
      { secret := some (cryptoBytes .ecPoint (keyIn (key 0x10) ++ [p256Base]) (fieldLen 0)) } := by
    simp [bneResult, ecdhJob, call, key, h]
  dsimp only [Plain, DerivesOn, Derives, SysServes, Serves]
  refine ⟨⟨by decide +kernel, by decide +kernel, by decide +kernel, h, ?_⟩,
    by decide +kernel, by decide +kernel, by decide +kernel, ?_⟩
  · rw [e]
    refine ⟨rfl, _, rfl, ticketed (chainOf []) { num := ecdhJob.num }, derivedSpec, ?_⟩
    and_intros <;> first | decide +kernel | simp [cryptoBytes, derivedSpec, key, materialLen, fieldLen]
  · refine ⟨rfl, _, rfl, ticketed (chainOf []) { num := decapsJob.num }, derivedSpec, ?_⟩
    and_intros <;> first | decide +kernel | simp [cryptoBytes, derivedSpec, key, materialLen]

theorem witness_PoolJobsComplete :
    (let s := pools [] [] { running := some mulJob } {}
     (bneOf s 0).running = some mulJob ∧ Plain mulJob ∧ bneKind mulJob.op = some .modMul ∧
       BneKind.hasInvariant .modMul mulJob.vas = false ∧ 0 < leNat (mulJob.ins.getD 0 [])) ∧
    (let j := { call 0x20 (some (key 0x10)) [zeros 32] with vas := true }; let s := pools [] [] { running := some j } {}
     (bneOf s 0).running = some j ∧ Plain j ∧ bneKind j.op = some (.ecSign 0) ∧
       BneKind.hasInvariant (.ecSign 0) j.vas = true ∧ (bneOf s 0).recovering = false) ∧
    (let j := call 3 none [[7], [6]]
     Plain j ∧ bneKind j.op = some .modInv ∧ 1 < leNat (j.ins.getD 0 []) ∧ leNat (j.ins.getD 1 []) < leNat (j.ins.getD 0 []) ∧
       Nat.gcd (leNat (j.ins.getD 1 [])) (leNat (j.ins.getD 0 [])) = 1) ∧
    (let j := call 3 none [[9], [6]]
     Nat.gcd (leNat (j.ins.getD 1 [])) (leNat (j.ins.getD 0 [])) ≠ 1 ∧ leNat (j.ins.getD 1 []) < leNat (j.ins.getD 0 [])) ∧
    (let j := call 0x11 none [[21], [3], [2]]
     Plain j ∧ bneKind j.op = some .rsaPub ∧ j.keyed = false ∧ 0 < beNat (j.ins.getD 0 [])) ∧
    (let s := pools [] [] {} { running := some signJob }
     (lteOf s 0).running = some signJob ∧ Plain signJob ∧ lteKind signJob.op = some (.signDet 0) ∧ LteKind.signs (.signDet 0) = true) ∧
    (let n := 4 * 2 ^ 60 + 1; let x := ticketed (chainOf []) { num := n, fail := some St.pkInputRange }
     4 ≤ n / 2 ^ 60 ∧ ((busy x).core 0).item = some x ∧
       ∀ y ∈ liveChains (busy x), y ≠ x → y.serial ≠ x.serial ∧ ∀ u ∈ y.tickets, u.num ≠ n) := by
  unfold Plain; and_intros <;> decide +kernel

theorem witness_PoolEnginesFaultAndRecover :
    (let s := pools [mulJob] [signJob] { loaded := [mulJob] } { loaded := [signJob] }
     (bneOf s 0).recovering = false ∧ (lteOf s 0).recovering = false ∧ (bneOf s 0).online = true ∧ (lteOf s 0).online = true) ∧
    (bneOf (pools [] [] {} {}) 15).running = none ∧ (bneOf (pools [] [] {} {}) 15).loaded = [] ∧
    (lteOf (pools [] [] {} {}) 7).running = none := by
  and_intros <;> decide +kernel


/-! ### Chapters 20, 1, 6 and 7 -/

/-- The register at an address is the one named, and Cox may access it. -/
abbrev Accessible (s : State) (a : Nat) (store : Bool) : Prop := MayAccess s .cox a store

theorem witness_RegisterWritesFollowAccessCodes :
    Accessible unit 0x00040004 true ∧ (∃ r, PlainRegister unit 0x00040004 r) ∧ gated unit 0x00050004 = true ∧
    Accessible unit 0x00040FFC true ∧ regDef 0x00040FFC = none ∧
    unitPresent .wx7440 (regPlace 0x0005F004).1 (regPlace 0x0005F004).2.1 = false := by
  have h : ∀ r, regDef 0x00040004 = some r → PlainRegister unit 0x00040004 r := fun r hr =>
    ⟨by decide +kernel, hr, by decide +kernel, by decide +kernel⟩
  have e : (regDef 0x00040004).isSome = true := by decide +kernel
  obtain ⟨r, hr⟩ := Option.isSome_iff_exists.mp e
  refine ⟨?_, ⟨r, h r hr⟩, by decide +kernel, ?_, by decide +kernel, by decide +kernel⟩ <;>
    (unfold Accessible MayAccess; and_intros <;> decide +kernel)

theorem witness_RegisterPairsAndCounters :
    (Accessible unit 0x00010010 false ∧ unitPresent unit.variant (regPlace 0x00010010).1 (regPlace 0x00010010).2.1 = true ∧
      (regDef 0x00010010).isSome = true ∧ (wideWords unit 0x00010010).isSome = true) ∧
    (Accessible unit 0x000E0010 true ∧ Accessible unit 0x000E0014 true ∧ rbit unit 0x000E0004 1 = false ∧
      unit.apu.pending = false ∧ (ruleShown unit).isSome = true) ∧
    (15 < unit.variant.symEngines ∧ Accessible unit 0x0010001C true ∧ lcState unit = .raw) ∧
    lcState { unit with lcf := { unit.lcf with held := some 19 } } = .deployed ∧
    (let s := { unit with rng := { unit.rng with data := some 0xFFFFFFFFFFFFFFFF } }
     Accessible s 0x000A002C false ∧ s.rng.data = some 0xFFFFFFFFFFFFFFFF) := by
  unfold Accessible MayAccess; and_intros <;> decide +kernel

/-- `unit` with a rule in force that gives core 0 no access to control space. -/
def refusing : State :=
  { unit with
    regs := (0x000E0004, 1) :: unit.regs
    apu := { active := [((0, 0), { start := 0, end_ := 0x15FFFF, attr := 192 })] } }

theorem witness_CsrInstructionsReachControlSpace :
    (let op := Op.svc .csrr 6 5 0; let x := privileged (prog op); let k := g5 0x00040004; let u := acting op k [] unit x
     Issues op k [] unit x ∧ x.priv = true ∧ (0x00040004 : Nat) % 4 = 0 ∧ apuRefuses u (csrAccess 0 x false) 0x00040004 4 = none) ∧
    (let op := Op.svc .csrr 6 5 0; Issues op (g5 0x00040004) [] ∧ (prog op).priv = false) ∧
    (let op := Op.svc .csrr 6 5 0; let x := privileged (prog op)
     Issues op (g5 2) [] unit x ∧ x.priv = true ∧ (rd (busy x (g5 2)) 0 5).toNat % 4 ≠ 0) ∧
    (let op := Op.svc .csrw 0 5 6; let x := privileged (prog op); let k := g5 0x00040004; let u := acting op k [] unit x
     Issues op k [] unit x ∧ x.priv = true ∧ apuRefuses u (csrAccess 0 x true) 0x00040004 4 = none) ∧
    (let op := Op.svc .csrw 0 5 6; Issues op (g5 0x00040004) [] ∧ (prog op).priv = false) ∧
    (let op := Op.svc .csrw 0 5 6; let x := privileged (prog op); let k := g5 0x00040004
     let s := refusing
     let u := acting op k [] s x
     Issues op k [] s x ∧ x.priv = true ∧ (apuRefuses u (csrAccess 0 x true) 0x00040004 4).isSome = true) := by
  dsimp only [Issues, CoreReady, StaysInCode]; and_intros <;> decide +kernel

/-- An established host session 9 of domain 1 on port 0. -/
def session : Session :=
  { id := 9, port := 0, state := .established, dom := 1, keys := [(1, zeros 88)], gen := 1, peerWin := 8, rxCum := 1, txSeq := 1, peerAck := 1
    rekeyAt := none }

/-- `serving` with the session and service on its port. -/
def hosting : State :=
  { serving with net := { sessions := [session], ports := Vector.replicate 5 { linkUp := true, service := true } } }

/-- A request header for queue 5 with request ID 4 and a class byte. -/
def reqHdr (cls : Nat) : List Byte := leBytes 4 4 ++ leBytes 1 cls ++ leBytes 1 0 ++ leBytes 2 5 ++ zeros 16

theorem witness_AdmittedRequestsJoinTheirQueue :
    (findSess hosting 9 = some session ∧ session.mgmt = false ∧ session.live = true ∧ session.state ≠ .closing ∧
      hosting.prl.yielding = false ∧ moduleCheck hosting = 0 ∧ recordOk (reqHdr 7) [] = true ∧
      targetCheck hosting session.dom (some session.port) 5 (fieldAt (reqHdr 7) 8 2) = 0 ∧
      findRet hosting 9 (fieldAt (reqHdr 7) 0 4) = none ∧ retRoom hosting 9 (replyRoom hosting 5) = true ∧ roomCheck hosting 5 = 0 ∧
      (alGet (cfgV hosting).queues 5).isSome = true) ∧
    (recordOk (reqHdr 4) [] = true ∧ ((cfgV hosting).share 3).map (·.c0Rate) = some 1 ∧ (insRt hosting 3).isSome = true) ∧
    moduleCheck { hosting with mec := { paused := true } } ≠ 0 := by
  and_intros <;> decide +kernel

/-- `serving` with two class-0 items on queue 5. -/
def queued : State :=
  { serving with
    regs := (0x00020004, 1) :: serving.regs
    ksc := { serving.ksc with base := { config with insts := [(3, { dom := 1, enabled := true, share := { share with c0Rate := 0 } })] } }
    dsp := { work := [{ item := { serial := 2, inst := 3, queue := 5, deadline := 9 } },
                      { item := { serial := 1, inst := 3, queue := 5, deadline := 5 } }] } }

theorem witness_DispatchStartsTheEarliestItem :
    let w : Work := { item := { serial := 1, inst := 3, queue := 5, deadline := 5 } }
    mayAssign queued 0 = true ∧ (freeCores queued 0).head? = some 0 ∧ holdPerCrew queued ≤ heldInCrew queued 0 ∧
      queued.pwr.limiting = false ∧ (∀ k < 4, 1 ≤ k → vget queued.dsp.credits k 0 ≤ 0) ∧ queued.prl.yielding = false ∧
      w ∈ queued.dsp.work ∧ w.item.cls = 0 ∧ w.carry = none ∧ queued.mer.t ≤ w.item.deadline ∧
      (∀ v ∈ queued.dsp.work, v.item.cls = 0 → v = w ∨ earlier w.item v.item = true) ∧
      boundEntry queued (cfgV queued) w.item = some (image, 0) ∧ (alGet (cfgV queued).queues w.item.queue).isSome = true := by
  and_intros <;> decide +kernel

theorem witness_DispatcherTimersAndContinuations :
    (let d : Delayed := { item := { serial := 1, inst := 3, queue := 5, cls := 0 }, due := 5, seq := 1, coarse := true }
     let e : Delayed := { item := { serial := 2, inst := 3, queue := 5, cls := 0 }, due := 6, seq := 2, coarse := false }
     let s := { serving with mer := { t := 5 }, dsp := { delay := [e, d], relCount := 15 } }
     d ∈ s.dsp.delay ∧ d.due ≤ s.mer.t ∧ serves s = true ∧ s.prl.yielding = false ∧
       (∀ f ∈ s.dsp.delay, f = d ∨ s.mer.t < f.due) ∧ s.dsp.relCount < 16 ∧
       releaseCheck s { d.item with deadline := s.mer.t } = 0) ∧
    (({ serving with mer := { elapsed := 16000 } } : State).dsp.creditMs < 16000 / 16000) ∧
    (let w : Work := { item := ticketed (chainOf []) { num := 9, done := some 0 }, carry := some { ctx := {}, ldm := [], ticket := 9 } }
     let s := { serving with dsp := { parked := [w] } }
     w ∈ s.dsp.parked ∧ (∃ k ∈ w.item.tickets, k.num = 9 ∧ k.done.isSome = true) ∧
       ∀ v ∈ s.dsp.parked, v ≠ w → v.item.serial ≠ w.item.serial ∧ (v.carry.map (·.ticket)) ≠ some 9) := by
  and_intros <;> decide +kernel

/-- Instance 3 in a state of its own; the instance block is enabled. -/
def instIn (x : InstRt) : State := { serving with regs := (0x00030004, 1) :: serving.regs, ins := [{ x with id := 3 }] }

theorem witness_InstanceControl :
    (let x : InstRt := { id := 3, hq := List.replicate 7 .clear }
     insRt (instIn x) 3 = some x ∧ blockEn (instIn x) 3 0 = true ∧ x.hq.length < 8) ∧
    (let x : InstRt := { id := 3, hq := List.replicate 8 .clear }
     insRt (instIn x) 3 = some x ∧ blockEn (instIn x) 3 0 = true ∧ 8 ≤ x.hq.length) ∧
    (insRt serving 3).isSome = true ∧ blockEn serving 3 0 = false ∧
    (let x : InstRt := { id := 3, state := .faulted, hq := [.clear] }; insRt (instIn x) 3 = some x ∧ x.draining = false) ∧
    (let x : InstRt := { id := 3, state := .active, hq := [.reset] }; insRt (instIn x) 3 = some x) ∧
    (let x : InstRt := { id := 3, state := .active, hq := [.faultLimit] }; insRt (instIn x) 3 = some x) ∧
    (let x : InstRt := { id := 3 }; let s := { instIn x with mer := { elapsed := 16000 } }
     insRt s 3 = some x ∧ (cfgV s).share 3 = some share ∧ 0 < share.faultWindow ∧
       x.winStart + share.faultWindow * 16000 ≤ s.mer.elapsed) ∧
    (let x : InstRt := { id := 3, state := .quiescing }; let s := { instIn x with mer := { elapsed := 60000 * 16000 } }
     insRt s 3 = some x ∧ x.quiesceAt + max 1 (min 60000 (fld s 0x00030030 0 16)) * 16000 ≤ s.mer.elapsed ∧ instOcc s 3 = 0) ∧
    (let x : InstRt := { id := 3, state := .resetting, draining := true }
     insRt (instIn x) 3 = some x ∧ drainBusy (instIn x) 3 = false) := by
  and_intros <;> decide +kernel


/-! ### Chapters 07 to 09 and 02 -/

/-- `serving` with the key store open, the time servo on and elapsed time 6 s. -/
def keeping : State :=
  { serving with
    regs := [(winBase 4 0 + 4, 1), (winBase 1 0 + 4, 0xF), (winBase 10 0 + 4, 3)] ++ serving.regs, mer := { elapsed := 96000000 } }

/-- A DOMAIN_CREATE record for domain 2 (Table 7.2). -/
def createBytes : List Byte := leBytes 2 0x0701 ++ leBytes 2 32 ++ leBytes 4 2 ++ zeros 24

/-- A complete ceremony of class 2 for it. -/
def created : Ceremony :=
  { number := 5, cls := 2, scope := 0, body := createBytes, close := 2 ^ 60, nonce := zeros 32, state := .complete }

/-- A BIND record of image 3, version 1, of domain 1 to queue 7. -/
def bindBytes : List Byte :=
  leBytes 2 0x0922 ++ leBytes 2 32 ++ leBytes 4 1 ++ zeros 8 ++ leBytes 2 7 ++ zeros 2 ++ leBytes 4 3 ++ leBytes 4 1 ++ zeros 4

/-- Bind 1 of a journal above V and a second bind, each of an image of 32 KiB, to queues of an instance with a reservation;
the second one's ceremony is complete. -/
def bindingTwo : State :=
  let big := fun (i : Nat) => { image with image := i, code := List.replicate 8193 0x08000000 }
  let q : QBlock := { inst := 3, replyCap := 64, depth := 4, budget := 100, c0Offset := 0 }
  { keeping with
    ksc := { keeping.ksc with
      images := [big 2, big 3]
      base := { config with queues := [(6, q), (7, q)], binds := [], images := [((1, 2, 1), []), ((1, 3, 1), [])] }
      commits := [{ csn := 1, recs := [.conf (.bind 1 6 2 1)] }] }
    qrm := { cers := [{ created with cls := 3, scope := 1, body := bindBytes }] } }

theorem witness_ConfigurationRecordsCommit :
    (confOf (.administrativeState 3 false) = some (.adminState 3 false) ∧ blockEn keeping 4 0 = true ∧ serves keeping = true ∧
      checkRecord keeping (cfgV keeping) (.adminState 3 false) = 0 ∧ quorumOk keeping (.adminState 3 false) = true ∧
      keeping.prl.state ≠ .divergent ∧ keeping.ksc.readOnly = false ∧
      conflicts keeping keeping.ksc.v [.conf (.adminState 3 false)] = false ∧ keeping.ksc.v ≤ lastCsn keeping ∧
      sumsFit keeping [.conf (.adminState 3 false)] = true) ∧
    (let s := { keeping with qrm := { cers := [created] } }
     checkRecord s (cfgV s) (.domainCreate 2) = 0 ∧ quorumOk s (.domainCreate 2) = true ∧
       authorising s (.domainCreate 2) = some created) ∧
    (confOf (.domainCreate 1) = some (.domainCreate 1) ∧ checkRecord keeping (cfgV keeping) (.domainCreate 1) ≠ 0) ∧
    (checkRecord keeping (cfgV keeping) (.domainCreate 2) = 0 ∧ quorumOk keeping (.domainCreate 2) = false) ∧
    (let s := { keeping with ksc := { keeping.ksc with readOnly := true } }
     checkRecord s (cfgV s) (.adminState 3 false) = 0 ∧ quorumOk s (.adminState 3 false) = true ∧
       s.prl.state ≠ .divergent ∧ s.ksc.readOnly = true) ∧
    (let r : ConfRec := .bind 1 7 3 1; let s := bindingTwo
     checkRecord s (cfgV s) r = 0 ∧ quorumOk s r = true ∧ s.prl.state ≠ .divergent ∧ s.ksc.readOnly = false ∧
       conflicts s s.ksc.v [.conf r] = false ∧ sumsFit s [.conf r] = false) := by
  and_intros <;> decide +kernel

/-- Commits 1 and 2, of which the first is durable. -/
def journal : State :=
  { keeping with
    ksc := { keeping.ksc with
      commits := [{ csn := 1, recs := [.conf (.adminState 3 false)] }, { csn := 2, recs := [.conf (.queueRemove 9)] }]
      die0 := 1, die1 := 2, durable := 1 } }

theorem witness_CommitsBecomeDurableThenVisible :
    commitsAbove journal journal.ksc.die0 = [{ csn := 2, recs := [.conf (.queueRemove 9)] }] ∧ journal.ksc.durable < 2 ∧
      2 ≤ journal.ksc.die1 ∧ commitsAbove journal journal.ksc.die1 = [] ∧ dieReports journal = false ∧
      (let s := { journal with ksc := { journal.ksc with die0 := 2, die1 := 0 } }
       commitsAbove s s.ksc.die0 = [] ∧ dieReports s = true ∧
       (commitsAbove s s.ksc.die1).head?.map (·.csn) = some 1 ∧ ¬s.ksc.durable < 1) ∧
      journal.pwr.mainPower = true ∧
      (commitsAbove journal journal.ksc.v).head? = some { csn := 1, recs := [.conf (.adminState 3 false)] } ∧
      mayAdvance journal { csn := 1, recs := [.conf (.adminState 3 false)] } = true ∧
      (let s := { journal with ksc := { journal.ksc with durable := 0 } }
       (commitsAbove s s.ksc.v).head? = some { csn := 1, recs := [.conf (.adminState 3 false)] } ∧ s.ksc.durable < 1) ∧
      (let s := { journal with ksc := { journal.ksc with v := 1 } }; trimLimit s = 1 ∧ ∃ m ∈ s.ksc.commits, m.csn ≤ 1) := by
  and_intros <;> decide +kernel

theorem witness_JournalInOrder : JournalInOrder journal := by unfold JournalInOrder; decide +kernel

/-- Key 9 of domain 1 is deleted, its copy in block 5 is to be erased; it is cached under an old mask. -/
def erasing : State :=
  { keeping with
    ksc := { keeping.ksc with
      deleted := [{ dom := 1, idx := 9, gen := 1 }]
      erase := [{ key := { dom := 1, idx := 9, gen := 1 }, block := 5, since := 0 }]
      cache := [{ name := { dom := 1, idx := 9, gen := 1 }, inst := 3, used := 0
                  slots := [{ value := zeros 64, mask := List.replicate 64 7, masked := 0 }] }]
      spares := 1 } }

theorem witness_KeysAreRemaskedAndErased :
    (let e : CacheEntry := { value := zeros 64, mask := List.replicate 64 7, masked := 0 }
     cacheEntry erasing.ksc.cache 0 = some e ∧ e.mask ≠ [] ∧ e.value.length ≤ 64 ∧ e.mask.length = 64 ∧
       e.masked / remaskPeriod erasing < erasing.mer.elapsed / remaskPeriod erasing ∧ ∃ m, Draws erasing .ksc 64 m) ∧
    (let s := { erasing with mer := {} }; s.mer.elapsed / remaskPeriod s ≤ 0 / remaskPeriod s) ∧
    ((∃ x ∈ erasing.ksc.cache, ∃ e ∈ x.slots, e.masked + 32000000 < erasing.mer.elapsed) ∧
      rbit erasing 0x00040008 4 = false) ∧
    (({ dom := 1, idx := 9, gen := 1 } : KeyName) ∈ erasing.ksc.deleted ∧
      keyReachable erasing { dom := 1, idx := 9, gen := 1 } = false) ∧
    keyReachable keeping stored.name = true ∧
    (1 < { keeping with ksc := { keeping.ksc with spares := 2 } }.ksc.spares) ∧
    (erasing.ksc.spares = 1 ∧ effective erasing 28 = 0) ∧
    (let s := { erasing with ksc := { erasing.ksc with erases := [(5, 3), (6, Config.ratedErases 6)] } }
     ((6, Config.ratedErases 6) : Nat × Nat) ∈ s.ksc.erases ∧ Config.ratedErases 6 ≤ Config.ratedErases 6) ∧
    (∀ e ∈ erasing.ksc.erase, e.key.dom ≠ 2) := by
  and_intros <;> first | decide +kernel | exact draws (by decide +kernel) | simp

/-- In FIX since 10 s ago, with the RTC due and a step pending. -/
def fixed : State :=
  { keeping with
    mer := { elapsed := 320000000, t := 5, state := .fix, initialSet := true, qualified := true, uAnchor := 20, unc := 20
             okSince := some 0, rtcNext := some 4, pendingStep := some 16000000 } }

theorem witness_MeridianTimeAdvances :
    (fixed.pwr.mainPower = true ∧ fixed.mer.initialSet = true) ∧
    (let s := { fixed with mer := { fixed.mer with qualified := false } }; s.mer.qualified = false ∧ s.mer.uAnchor ≠ 0xFFFFFFFF) ∧
    (State.reset.pwr.mainPower = false ∧ State.reset.bin.rtc + 1 < 2 ^ 64 ∧ State.reset.mer.initialSet = false) ∧
    servoOn fixed = true ∧ servoOn serving = false := by
  and_intros <;> decide +kernel

theorem witness_StepsMoveTimeAndFixSetsTheRtc :
    (fixed.mer.pendingStep = some 16000000 ∧ servoOn fixed = true ∧ fixed.prl.handbackAt = none) ∧
    (keeping.mer.pendingStep = none ∧ servoOn serving = false) ∧
    (fixed.mer.rtcNext = some 4 ∧ 4 ≤ fixed.mer.t ∧ fixed.mer.t ≤ 4 + 1 ∧ fixed.mer.state = .fix ∧
      rbit fixed 0x00010004 3 = true) ∧
    keeping.mer.state ≠ .fix := by
  and_intros <;> decide +kernel

/-- `MER_ADRIFT_LIMIT` takes 10,000 to 1,000,000,000 and reads back what it holds (R80). -/
theorem test_adrift_limit_is_clamped :
    (match exec (.registerWrite .cox 0x0001001C 2000000000) serving with
      | .next t => (readReg t 0x0001001C).1 == 1000000000 | _ => false) = true ∧
    (match exec (.registerWrite .cox 0x0001001C 5) serving with
      | .next t => (readReg t 0x0001001C).1 == 10000 | _ => false) = true := by
  decide +kernel

/-- The tick reaches both sides of the ADRIFT limit. -/
theorem test_adrift_limit_is_reached :
    (match exec (.meridianTick 0) fixed with
      | .next t => decide (t.mer.unc ≤ adriftLimit fixed ∧ t.mer.state = .fix) | _ => false) = true ∧
    (match exec (.meridianTick 0) { fixed with mer := { fixed.mer with qualified := false, uAnchor := 0xFFFFFFFF } } with
      | .next t => decide (adriftLimit fixed < t.mer.unc ∧ t.mer.state = .adrift) | _ => false) = true := by
  decide +kernel

/-- A PTP message of the port and the grandmaster; TLV checks are off. -/
def ptp : PtpHdr := { port := 4, transport := 0, domainNo := 0, auth := false, spp := 0, source := 77, event := none }

/-- The grandmaster's dataset. -/
def master : Announce :=
  { prio1 := 1, clockClass := 6, accuracy := 0, variance := 0, prio2 := 0, identity := 77, stepsRemoved := 0, interval := 16000000 }

/-- Servo on, the grandmaster selected, its last messages 6 s ago, a two-step Sync pending, the pulse in use. -/
def timed : State :=
  { keeping with
    regs := (winBase 1 0 + 4, 0xB) :: keeping.regs
    mer := { keeping.mer with initialSet := true, qualified := true, gm := some master, sync := some (3, 1000) } }

theorem witness_TimeSourcesMeasureTheOffset :
    (servoOn serving = false ∧ ptpOk { serving with regs := (winBase 1 0 + 4, 0xA) :: serving.regs } ptp = true) ∧
    (let s := { timed with mer := { timed.mer with initialSet := false, qualified := false, uSeed := some 0 } }
     s.mer.initialSet = false ∧ seedHolds s 0 = true ∧ seedHolds s 20000000 = false) ∧
    servoOn timed = true ∧ ptpOk timed ptp = true ∧ fromGm timed ptp = true ∧ timed.mer.initialSet = true ∧
    timed.mer.sync = some (3, 1000) ∧ keeping.mer.sync = none ∧ timed.mer.exchange = none ∧
    (let s := { timed with mer := { timed.mer with exchange := some { rx := 9, tx := 10, origin := some 4 } } }
     s.mer.exchange = some { rx := 9, tx := 10, origin := some 4 } ∧ s.mer.sync = some (3, 1000) ∧
       ∀ y, s.mer.exchange = some y → y.received = none) ∧
    (let s := { timed with mer := { timed.mer with exchange := some { rx := 9, tx := 10 } } }
     s.mer.exchange = some { rx := 9, tx := 10 } ∧ ptpOk s ptp = true ∧ fromGm s ptp = true) ∧
    (ptp.port ≤ 4 ∧ ptp.event = none ∧ { ptp with event := some 7 }.event = some 7) ∧
    ptpOk timed { ptp with domainNo := 1 } = false ∧ timed.mer.gm = some master ∧
    betterClock { master with prio1 := 0, identity := 78 } master = true ∧
    betterClock { master with prio1 := 2, identity := 78 } master = false ∧
    (let s := { timed with mer := { timed.mer with gm := none } }; servoOn s = true ∧ ptpOk s ptp = true ∧ s.mer.gm = none) ∧
    timed.mer.gmAt + 3 * master.interval ≤ timed.mer.elapsed ∧
    timed.mer.qualified = true ∧ timed.mer.lastSync + 64000000 ≤ timed.mer.elapsed ∧
    rbit timed 0x00010004 1 = true ∧
    (1250 : Int).natAbs ≤ (Machine.stored timed 0x00010020).toNat + 1000 ∧
    (Machine.stored timed 0x00010020).toNat + 1000 < (-1251 : Int).natAbs := by
  and_intros <;> first | decide +kernel | (intro y h; cases h; rfl)

/-- Sources in the given states, the block on, instance 8 due for reseeding. -/
def seeding (l : Vector SrcState 4) : State :=
  { keeping with rng := { src := l, seedBuf := [zeros 32, zeros 32], drbg := Vector.replicate 9 { state := .serving, reqs := 65536 } } }

/-- Samples on which the two tests of a source pass, and on which they fail. -/
def passing : List Bool := (List.range 512).flatMap fun n => [true, n % 2 == 0]

theorem witness_RandomNumberBlock :
    (keeping.pwr.mainPower = true ∧ blockEn keeping 10 0 = true) ∧
    ((passing.take 512 ++ passing.drop 512).length = 1024 ∧ rctBad (passing.take 512 ++ passing.drop 512) = false ∧
      aptBad (passing.take 512 ++ passing.drop 512) = false ∧ rctBad (List.replicate 1024 true) = true) ∧
    (srcOf (seeding (Vector.replicate 4 .startTest)) 3 = .startTest ∧ srcOf (seeding (Vector.replicate 4 .retest)) 3 = .retest ∧
      vget (seeding (Vector.replicate 4 .retest)).rng.repeats 3 0 < 2) ∧
    (let s := { seeding (Vector.replicate 4 .retest) with lcf := { stage := 4 } }
     let s := { s with rng := { s.rng with repeats := Vector.replicate 4 2 } }
     srcOf s 3 = .retest ∧ 2 ≤ vget s.rng.repeats 3 0 ∧ s.lcf.stage < 5) ∧
    (let s := seeding (Vector.replicate 4 .healthy); (∀ n < 4, srcOf s n = .healthy) ∧ s.rng.seedBuf.length < 16) ∧
    (let q : Samples := { before := List.replicate 40 true, window := passing }
     rctBad (q.before ++ q.window) = true ∧ aptBad q.window = false) ∧
    (rctBad ([] ++ passing) = false ∧ aptBad passing = false) ∧
    (let q : Samples := { before := [], window := (List.range 64).flatMap fun _ => List.replicate 15 true ++ [false] }
     rctBad (q.before ++ q.window) = false ∧ aptBad q.window = true) ∧
    (∃ n < 4, srcOf (seeding (Vector.replicate 4 .off)) n ≠ .healthy) ∧
    (let s := { keeping with rng := { seedBuf := [zeros 32, zeros 32] } }
     nextDrbg s = some 8 ∧ s.rng.seedBuf = zeros 32 :: zeros 32 :: []) ∧
    (let s := { keeping with rng := { seedBuf := [zeros 32, zeros 32], drbg := Vector.ofFn fun n => if n.val = 8 then { state := .serving } else {} } }
     nextDrbg s = some 0 ∧ 0 ≠ s.variant.sysUnit) ∧
    (let s := seeding (Vector.replicate 4 .healthy)
     8 ≤ s.variant.sysUnit ∧ (drbgOf s 8).state = .serving ∧ 65536 ≤ (drbgOf s 8).reqs ∧ s.rng.seedBuf = zeros 32 :: [zeros 32] ∧
       s.net.hellos = []) ∧
    (rbit keeping 0x000A0004 1 = true ∧ keeping.rng.data = none ∧ SysServes keeping 1 ∧ ∃ b, Draws keeping .data 8 b) := by
  dsimp only [SysServes, Serves]; and_intros <;> first | decide +kernel | exact draws (by decide +kernel)


/-! ### Chapters 14 and 15 -/

/-- Without injectors no frame is touched. -/
theorem noDrill_of_reset (s : State) (h : s.drl = {}) : NoDrill s := by
  intro i
  by_cases hi : i < 5
  · simp [injOf, h, vget, hi]
  · simp [injOf, vget, hi]

/-- `keeping` with host port 0 in use: enabled, IPv4 and IPv6, untagged frames, echo; no cookies. -/
def porting : State :=
  { keeping with
    regs := [(hptAddr 0 0x004, 0x1F), (hptAddr 0 0x01C, 0x0A000002), (hptAddr 0 0x088, 0x0A000001), (hptAddr 0 0x098, 1)] ++ keeping.regs
    net := { ports := Vector.replicate 5 { linkUp := true, service := true, announce := [5] } } }

/-- A frame from a host on port 0 whose lengths agree. -/
def frameOf (typ : Nat) (body : List Byte) (hdr : FrameHdr := {}) : Frame :=
  { port := 0, hdr := { hdr with typ := typ, plen := body.length }, body := body
    link := { dst := 0x0A000002, udpLen := 48 + body.length + if protectedType typ then 16 else 0 } }

theorem witness_PortsAnswerAndDiscard :
    (porting.pwr.mainPower = true ∧ portPresent porting 0 = true) ∧ NoDrill porting ∧
    linkOk porting { frameOf 10 (zeros 16) with link := { mac := .other } } = false ∧
    (linkOk porting { frameOf 2 (zeros 16) with link := { dst := 0x0A000002 } } = true ∧
      headerOk { frameOf 2 (zeros 16) with link := { dst := 0x0A000002 } } = false) ∧
    (Handled porting (frameOf 10 (zeros 16)) ∧ porting.pwr.pwrGoodAt + 6400000 ≤ porting.mer.elapsed) ∧
    (let s := { porting with net := { ports := Vector.replicate 5 { beaconSec := 6, beaconCount := 10000, service := true } } }
     Handled s (frameOf 10 (zeros 16)) ∧ (portOf s 0).beaconSec = s.mer.elapsed / 16000000 ∧ 10000 ≤ (portOf s 0).beaconCount) ∧
    isUnit4 porting 0 0x0A000001 = true ∧ isUnit6 porting 0 1 = true ∧
    (isUnit4 porting 0 7 = false ∧ isService4 porting 0 7 = false) ∧
    (hptFld porting 0 0x004 4 1 = 1 ∧ porting.lcf.holdWater = false) ∧
    { porting with lcf := { porting.lcf with holdWater := true } }.lcf.holdWater = true ∧
    ((portOf porting 0).announce = [5] ∧ 5 ≤ porting.mer.elapsed ∧ txOpen porting 0 = true ∧
      hasService porting 0 false = true) := by
  dsimp only [Handled]
  refine ⟨?_, noDrill_of_reset _ rfl, ?_⟩ <;> and_intros <;> decide +kernel

/-- Body of a HELLO that asks for ML-DSA-44 and home instance 3 (Table 14.7). -/
def helloBody : List Byte :=
  leBytes 2 1 ++ zeros 2 ++ leBytes 2 3 ++ leBytes 1 0x28 ++ zeros 57 ++ p256Base ++ zeros 7 ++ zeros 1184

/-- A half-open session 4 of port 0, and its CONFIRM body (Table 14.11). -/
def opening : Session :=
  { id := 4, port := 0, alg := 0x10, home := 3, cred := { dom := 1, idx := 6, gen := 1 }, keys := [(0, zeros 88)], rxSwitch := some 0 }

/-- A credential key for signatures with P-256. -/
def credKey : KeyRec :=
  { name := { dom := 1, idx := 6, gen := 1 }
    attrs := { alg := 0x10, size := 64, usage := 2 ^ uVerify, engines := 2 ^ eBne, persist := true, notAfter := 2 ^ 64 - 1 } }

/-- `porting` with the half-open session and its credential; instance 3 may hold a session. -/
def confirming : State :=
  { porting with
    ksc := { porting.ksc with
      base := { config with keys := [credKey], insts := [(3, { dom := 1, enabled := true, share := { share with sessions := 1 } })] } }
    net := { porting.net with sessions := [opening] } }

/-- A frame that a host seals under the direction keys `keys`. -/
def sealedFrame (keys : List Byte) (typ : Nat) (body : List Byte) (hdr : FrameHdr) : Frame :=
  let f := frameOf typ body hdr
  let c := sealBody keys true f.hdr body
  { f with body := c.1, tag := c.2 }

/-- A frame that passes rows 1 to 5 of Table 14.1 and is sealed under the first generation that is tried reaches its session. -/
theorem reaches (s : State) (x : Session) (keys : List Byte) (typ : Nat) (body : List Byte) (hdr : FrameHdr) (g : Nat)
    (rest : List Nat) (hd : s.drl = {}) (h : Handled s (sealedFrame keys typ body hdr))
    (ht : toService s (sealedFrame keys typ body hdr) = true) (hq : portServes s 0 = true) (hm : servesSess s x = true)
    (hf : findSess s x.id = some x) (hs : hdr.sess = x.id) (hp : 0 = x.port)
    (hg : tryGens x (sealedFrame keys typ body hdr) = g :: rest) (hk : keysFor x g = some keys) :
    ReachesSession s (sealedFrame keys typ body hdr) x g
      { stamped s (sealedFrame keys typ body hdr) with body := body } :=
  ⟨noDrill_of_reset _ hd, h, Or.inr ht, hq, hm, hf, hs, hp,
    verifies_sealed (f := stamped s (sealedFrame keys typ body hdr)) hg hk rfl⟩

/-- Body of a CONFIRM with a P-256 signature. -/
def confirmBody : List Byte := leBytes 2 1 ++ zeros 6 ++ leBytes 2 64 ++ zeros 6 ++ zeros 64

theorem witness_HandshakeOpensSessions :
    (let f := frameOf 1 helloBody
     f = f.andThen [] ∧ NoDrill porting ∧ Handled porting f ∧ toService porting f = true ∧ serviceOn porting f.port = true ∧
       f.hdr.typ = 1 ∧ portServes porting 0 = true ∧
       inService porting = true ∧ SysServes porting 1 ∧ (∃ b, Draws porting .ports 100 b) ∧ porting.bin.lock = false ∧
       porting.bin.lockNew = false ∧ porting.rng.alarm = false ∧ halfOpens porting = [] ∧
       porting.net.sessions.length + porting.net.quarantine.length + 2 ≤ 2 ^ 32 ∧ helloLayout porting f = true ∧
       hptFld porting 0 0x004 5 2 = 0 ∧ (porting.net.sessions.filter fun x => x.port = 0).length < porting.variant.sessions ∧
       (halfOpens porting).length < 16384 ∧
       sharesOk (frameOf 1 (helloBody.take 64 ++ zeros 1256)) = false ∧ sharesOk f = true ∧ vasOn porting = false) ∧
    vasOn { porting with pwr := { porting.pwr with committed := { porting.pwr.committed with vas := 1 } } } = true ∧
    (let f := frameOf 1 (zeros 16); Handled porting f ∧ helloLayout porting f = false) ∧
    (let f := sealedFrame (zeros 88) 3 confirmBody { sess := 4 }
     f = f.andThen [] ∧ ReachesSession confirming f opening 0 { stamped confirming f with body := confirmBody } ∧
       f.hdr.typ = 3 ∧ opening.state = .halfOpen ∧ bitOf f.hdr.flags 0 = false ∧ f.hdr.seq = 0 ∧
       opening.unacked = [] ∧ Quiet opening ∧ opening.anchored = false ∧
       opening.peerAck ≤ f.hdr.cumAck ∧ ackViolates opening f.hdr = false ∧ confirming.prl.joined = false) ∧
    confirmCheck confirming opening (zeros 8) ≠ none ∧
    (findSess confirming 4 = some opening ∧ opening.opened + 32000000 ≤ confirming.mer.elapsed ∧
      { confirming with mer := { elapsed := 31999999 } }.mer.elapsed < opening.opened + 32000000) ∧
    porting.net.cookieEpoch = porting.mer.t / 2 ^ 32 ∧
    (let s := { porting with mer := { t := 2 ^ 32 } }
     s.net.cookieEpoch + 1 = s.mer.t / 2 ^ 32 ∧ SysServes s 1 ∧ ∃ k, Draws s .ports 32 k) := by
  dsimp only [SysServes, Serves, Handled]
  refine ⟨⟨by simp [Frame.andThen], noDrill_of_reset _ rfl, ?_⟩, ?_, ?_, ⟨by simp [Frame.andThen],
    reaches _ _ _ _ _ _ _ [] rfl (by dsimp only [Handled]; and_intros <;> decide +kernel) (by decide +kernel) (by decide +kernel)
      (by decide +kernel) (by decide +kernel) rfl rfl (by decide +kernel) rfl, ?_⟩, ?_⟩ <;>
    and_intros <;> first | exact ⟨⟨rfl, rfl⟩, rfl, rfl⟩ | exact draws (by decide +kernel) | decide +kernel

/-- The CONFIRM passes Table 14.12 if its signature verifies. -/
theorem witness_ConfirmPasses :
    confirmSigOk confirming opening confirmBody = true → confirmCheck confirming opening confirmBody = none := by
  intro h
  simp only [confirmCheck, h]
  decide +kernel

/-- An established session 9 of port 0 under generation 1, whose frames 0 to 4 arrived. -/
def talk : Session :=
  { id := 9, port := 0, state := .established, dom := 1, keys := [(1, zeros 88)], gen := 1, rxSwitch := some 0, peerWin := 8, rxCum := 5
    txSeq := 1, peerAck := 1, anchored := true }

/-- `porting` with a session. -/
def talking (x : Session) : State := { porting with net := { porting.net with sessions := [x] } }

/-- A frame of the session's generation 1. -/
abbrev talkFrame (typ : Nat) (body : List Byte) (hdr : FrameHdr) : Frame := sealedFrame (zeros 88) typ body hdr

/-- The frame reaches the session with `body` in clear. -/
abbrev Arrives (x : Session) (f : Frame) (g : Nat) (body : List Byte) : Prop :=
  ReachesSession (talking x) f x g { stamped (talking x) f with body := body }

/-- Header of the next frame of `talk`. -/
def nextHdr : FrameHdr := { flags := 2, sess := 9, seq := 5, cumAck := 1, rwnd := 8 }

/-- A REKEY_ACK body for generation 1 from frame 6 on, and a RESYNC body for generation 2. -/
def rekeyAckBody : List Byte := leBytes 4 1 ++ zeros 4 ++ leBytes 8 6
def resyncAsk : List Byte := leBytes 4 2 ++ zeros 4

/-- `talk` after a rekey that REKEY_ACK has not answered: the host still sends under generation 0. -/
def rekeying : Session := { talk with state := .rekeying, oldGen := some 0, rxSwitch := none, keys := [(1, zeros 88), (0, zeros 88)] }

/-- Direction keys of generation 2. -/
def laterKeys : List Byte := directionKeys (laterSecret talk.sg 2 1)

theorem witness_SessionFramesAreAccepted :
    (Arrives talk (talkFrame 5 [] nextHdr) 1 [] ∧ talk.state = .established ∧ NextInOrder talk (talkFrame 5 [] nextHdr)) ∧
    (Arrives talk (talkFrame 4 [] nextHdr) 1 [] ∧ NextInOrder talk (talkFrame 4 [] nextHdr) ∧
      bitOf nextHdr.flags 0 = false ∧ talk.port < 5) ∧
    (Arrives talk (talkFrame 5 [] { nextHdr with seq := 4 }) 1 [] ∧ 4 < talk.rxCum) ∧
    (Arrives talk (talkFrame 4 [] { nextHdr with seq := 261 }) 1 [] ∧ talk.rxCum + talk.advWin ≤ 261 ∧ 261 ∉ talk.rxSet) ∧
    (let h := { nextHdr with flags := 0 }
     Arrives rekeying (talkFrame 7 rekeyAckBody h) 0 rekeyAckBody ∧ rekeying.state = .rekeying ∧
       NextInOrder rekeying (talkFrame 7 rekeyAckBody h) ∧ rekeyAckBody.length = 16 ∧ fieldAt rekeyAckBody 0 4 = rekeying.gen ∧
       rsvdOk rekeyAckBody 4 4 = true ∧ 5 + 1 ≤ fieldAt rekeyAckBody 8 8) ∧
    (Arrives talk (talkFrame 8 (zeros 8) nextHdr) 1 (zeros 8) ∧ NextInOrder talk (talkFrame 8 (zeros 8) nextHdr) ∧
      (zeros 8).length = 8 ∧ rsvdOk (zeros 8) 3 5 = true) ∧
    (let h := { nextHdr with flags := 0 }
     Arrives talk (sealedFrame laterKeys 9 resyncAsk h) 2 resyncAsk ∧ talk.resyncAt = none ∧ talk.unacked = [] ∧ Quiet talk ∧
       talk.anchored = true ∧ parseResync resyncAsk = some (2, 0, 0) ∧ talk.gen < 2 ∧ 0 < h.rwnd ∧
       (talking talk).prl.joined = false ∧ (talking talk).mec.paused = false) ∧
    (let f := talkFrame 4 [] { nextHdr with flags := 0 }
     NoDrill (talking talk) ∧ Handled (talking talk) f ∧ f.hdr.typ = 4 ∧ findSess (talking talk) f.hdr.sess = some talk ∧
       talk.port = f.port ∧ verifies talk (stamped (talking talk) f) = none) := by
  refine ⟨⟨?_, ?_, ?_⟩, ⟨?_, ?_, ?_⟩, ⟨?_, ?_⟩, ⟨?_, ?_⟩, ⟨?_, ?_, ?_, ?_⟩, ⟨?_, ?_, ?_⟩, ⟨?_, ?_, ?_, ?_, ?_⟩,
    noDrill_of_reset _ rfl, by dsimp only [Handled]; and_intros <;> decide +kernel, ?_⟩ <;> first
    | exact reaches _ _ _ _ _ _ _ _ rfl (by dsimp only [Handled]; and_intros <;> decide +kernel)
        (by decide +kernel) (by decide +kernel) (by decide +kernel) (by decide +kernel) rfl rfl rfl rfl
    | exact ⟨by decide +kernel, by decide +kernel, by decide +kernel, by decide +kernel, by decide +kernel,
        by decide +kernel, ⟨rfl, rfl⟩, rfl, rfl⟩
    | exact ⟨⟨rfl, rfl⟩, rfl, rfl⟩
    | decide +kernel

theorem witness_SessionTimers :
    (findSess (talking talk) talk.id = some talk ∧ (talking talk).pwr.mainPower = true ∧ servesSess (talking talk) talk = true ∧
      NoDrill (talking talk) ∧ (talking talk).prl.joined = false ∧ (talking talk).mec.paused = false) ∧
    (SendsNow talk ∧ Quiet talk ∧ 2 ^ 47 ≤ max { talk with genTx := 2 ^ 47 }.genTx talk.genRx) ∧
    talk.genStart + 57600000000 ≤ { talking talk with mer := { elapsed := 57600000000 } }.mer.elapsed ∧
    { talk with anchored := false }.anchored = false ∧
    (let x := { talk with peerWin := 0 }; x.peerAck + x.peerWin ≤ x.txSeq) ∧
    (let x := { talk with oldGen := some 0, rekeyAt := some 1 }
     x.oldGen = some 0 ∧ x.rekeyAt = some 1 ∧ 1 + 32000000 ≤ (talking x).mer.elapsed) ∧
    (let u : TxFrame := { seq := 0, typ := 4, gen := 1 }; let x := { talk with unacked := [u], ackDue := some 7 }
     u ∈ x.unacked ∧ (∀ v ∈ x.unacked, v.seq = u.seq → v = u) ∧ u.rtoAt ≤ (talking x).mer.elapsed ∧ u.typ ≠ 5 ∧
       (alGet x.keys u.gen).isSome = true ∧ alGet x.keys 0 = none ∧ x.awaits = none ∧
       x.ackDue = some 7 ∧ 7 ≤ (talking x).mer.elapsed ∧ x.txSeq < x.peerAck + x.peerWin + 64) ∧
    talk.lastTx + 16000000 ≤ (talking talk).mer.elapsed ∧
    talk.lastRx + idleTicks (talking talk) 0 ≤ { talking talk with mer := { elapsed := 480000000 } }.mer.elapsed ∧
    ({ talk with state := .closing }.closeAt + 1600000 ≤ (talking talk).mer.elapsed) ∧
    (let e : Retained := { sess := 9, reqId := 4, digest := [], reply := some { reqId := 4, status := 0 }, sentAt := some 0, acked := true }
     let s := { talking talk with net := { (talking talk).net with retention := [e] } }
     findRet s 9 4 = some e ∧ e.reply.isSome = true ∧ 0 + retainTicks s 0 ≤ s.mer.elapsed) := by
  dsimp only [SendsNow]
  and_intros <;> first | exact noDrill_of_reset _ rfl | exact ⟨⟨rfl, rfl⟩, rfl, rfl⟩ | decide +kernel


/-! ### Management and ceremonies -/

/-- A management session whose host's window is full. -/
def desk : Session := { id := 2, port := 4, state := .established, mgmt := true }

/-- `keeping` with every block enabled that management uses, in life-cycle state PROVISIONING, a management session and `talk`. -/
def managed : State :=
  { keeping with
    regs := [(winBase 0 0 + 4, 1), (winBase 16 0 + 4, 1), (winBase 19 0 + 4, 1), (winBase 21 0 + 4, 1)] ++ keeping.regs
    lcf := { stage := 9, held := some 18 }
    net := { sessions := [desk, talk] } }

/-- `managed` in Hold-Water. -/
def heldBack : State := { managed with lcf := { managed.lcf with holdWater := true } }

/-- A message of the session. -/
def ask : Mgmt := { sess := 2, reqId := 7 }

/-- An ADMINISTRATIVE_STATE record for instance 3. -/
def adminBytes : List Byte := leBytes 2 0x0712 ++ leBytes 2 24 ++ leBytes 4 3 ++ zeros 16

/-- A DOMAIN_CREATE record for a domain that exists. -/
def twiceBytes : List Byte := leBytes 2 0x0701 ++ leBytes 2 32 ++ leBytes 4 1 ++ zeros 24

theorem asked : Asked managed ask desk ∧ Asked heldBack ask desk := by
  refine ⟨⟨?_, ?_, ?_, ?_, ?_⟩, ⟨?_, ?_, ?_, ?_, ?_⟩⟩ <;> decide +kernel

/-- The last part of an upload of image 1, version 1 of domain 1, one byte at offset `n`. -/
def uploadBytes (n : Nat) : List Byte :=
  leBytes 2 1 ++ zeros 2 ++ leBytes 4 1 ++ leBytes 4 1 ++ zeros 3 ++ leBytes 1 1 ++ leBytes 8 n ++ [0xAA]

/-- `managed` with a challenge for purpose `p` and target `g`, an owner and the first answer given. -/
def challenged (p g : Nat) (ok own : Bool) (s : State := managed) : State :=
  { s with lcf := { s.lcf with challenge := some (zeros 16 ++ leBytes 1 p ++ leBytes 1 g ++ zeros 42), owner := some [1], thapraOk := ok, ownerOk := own } }

theorem witness_ManagementMessages :
    (Asked managed ask desk ∧ NoDrill managed ∧ Asked heldBack ask desk ∧ NoDrill heldBack) ∧
    (blockEn managed 0 0 = true ∧ parseReg [] = none) ∧
    ((0x00040004 : Nat) % 4 = 0 ∧ (0x15FFFC : Nat) ≤ 0x15FFFF ∧ apuRefuses managed (iniAccess .cox false) 0x15FFFC 4 = none) ∧
    (managed.lcf.holdWater = false ∧ regClosed 0x00040004 = false ∧ (∃ r, PlainRegister managed 0x00040004 r) ∧
      apuRefuses managed (iniAccess .cox true) 0x00040004 4 = none) ∧
    ((2 ^ 32 - 1) % 4 ≠ 0 ∧ 2 ^ 32 - 1 < 2 ^ 32) ∧
    (serves managed = true ∧ kscOn managed = true ∧ 16 ≤ adminBytes.length ∧ adminBytes.length ≤ 1024 ∧ fieldAt adminBytes 2 2 = adminBytes.length ∧
      parseJput adminBytes = some (.adminState 3 false) ∧ checkRecord managed (cfgV managed) (.adminState 3 false) = 0 ∧
      quorumOk managed (.adminState 3 false) = true ∧ authorising managed (.adminState 3 false) = none ∧
      managed.prl.state ≠ .divergent ∧ managed.ksc.readOnly = false ∧
      conflicts managed managed.ksc.v [.conf (.adminState 3 false)] = false ∧ managed.ksc.v ≤ lastCsn managed ∧
      sumsFit managed [.conf (.adminState 3 false)] = true ∧
      ∀ h ∈ managed.net.held, managed.ksc.v < h.csn) ∧
    (fieldAt twiceBytes 2 2 = twiceBytes.length ∧ parseJput twiceBytes = some (.domainCreate 1) ∧
      checkRecord managed (cfgV managed) (.domainCreate 1) ≠ 0) ∧
    (let b := uploadBytes 0
     24 < b.length ∧ b.length ≤ 8192 ∧ fieldAt b 0 2 ≤ 4096 ∧ rsvdOk b 2 2 = true ∧ rsvdOk b 12 3 = true ∧
       fieldAt b 15 1 = 1 ∧ fieldAt b 16 8 = 0 ∧ fieldAt (uploadBytes 5) 16 8 ≠ 0) ∧
    (let b := zeros 7 ++ leBytes 1 1 ++ leBytes 8 0 ++ [0xAA]
     16 < b.length ∧ b.length ≤ 8192 ∧ rsvdOk b 0 7 = true ∧ fieldAt b 7 1 = 1 ∧ fieldAt b 8 8 = 0) ∧
    (heldBack.lcf.holdWater = true ∧ 3 ≤ heldBack.lcf.stage) ∧
    (findSess managed talk.id = some talk ∧ talk.id ≠ ask.sess ∧ talk.state = .established ∧ findSess managed 77 = none) ∧
    (lcState managed = .provisioning ∧ managed.lcf.owner = none ∧ (challenged 2 1 false false).lcf.owner ≠ none) ∧
    (challengeOk managed 2 1 = true ∧ SysServes managed 1 ∧ (∃ b, Draws managed .unit 32 b) ∧ challengeOk managed 2 3 = false) ∧
    ((challenged 2 1 false true).lcf.challenge.isSome = true ∧ responseLayout (leBytes 1 2 ++ zeros 7226) = true ∧
      responseLayout (leBytes 1 3 ++ zeros 7226) = true ∧ (challenged 2 1 false true).lcf.ownerOk = true ∧
      (challenged 2 1 true false).lcf.thapraOk = true ∧ (challenged 2 1 true false).lcf.ownerOk = false) ∧
    (∀ g ∈ [3, 5], let s := challenged 1 g true false heldBack; s.lcf.holdWater = true ∧ mayTransit s = true ∧
      s.lcf.challenge.map (fun c => (fieldAt c 16 1, fieldAt c 17 1)) = some (1, g)) ∧
    (sysReady managed = true ∧ (∀ w ∈ managed.qrm.opens, w.1 = ask → managed.mer.elapsed < w.2 + 1600)) ∧
    (let s := { managed with rng := {}, qrm := { opens := [(ask, 0)] } }
     Asked s ask desk ∧ (ask, 0) ∈ s.qrm.opens ∧ 0 + 1600 ≤ s.mer.elapsed ∧ sysReady s = false) ∧
    (let s := pendingOn (chainOf []) [] [pendGen] { State.reset with mer := { elapsed := 1600 } }
     (s.core 0).pendK = [pendGen] ∧ pendGen.creates = true ∧ pendGen.status = 0 ∧ sysReady s = false ∧
       pendGen.asked + 1600 ≤ s.mer.elapsed) := by
  have h : ∀ r, regDef 0x00040004 = some r → PlainRegister managed 0x00040004 r := fun r hr =>
    ⟨by decide +kernel, hr, by decide +kernel, by decide +kernel⟩
  have e : (regDef 0x00040004).isSome = true := by decide +kernel
  obtain ⟨r, hr⟩ := Option.isSome_iff_exists.mp e
  dsimp only [SysServes, Serves]
  refine ⟨⟨asked.1, noDrill_of_reset _ rfl, asked.2, noDrill_of_reset _ rfl⟩, ?_, ?_, ⟨?_, ?_, ⟨r, h r hr⟩, ?_⟩, ?_⟩ <;>
    and_intros <;> first
    | decide +kernel
    | exact draws (by decide +kernel)
    | exact ⟨by decide +kernel, by decide +kernel, by decide +kernel, by decide +kernel, by decide +kernel⟩

/-- Officer 1, who approves with an ML-DSA-44 key of zeros. -/
def officer1 : Officer := { slot := 1, alg := 0x28, roles := 1, tag := 0, pkDigest := sha3_256 (zeros 1312) }

/-- Officer 1 of the module approves by k = 2 in every class. -/
def officered : State :=
  { managed with
    ksc := { managed.ksc with
      base := { config with
        officers := [(0, [officer1])]
        policies := [(0, (scopeClasses 0).map fun n => { cls := n, k := 2, mask := 2 })] } }
    mer := { managed.mer with t := 2 ^ 32 } }

/-- A ceremony of number 5 in the module's scope. -/
def cer (cls k : Nat) (body : List Byte) : Ceremony :=
  { number := 5, cls := cls, scope := 0, body := body, close := 2 ^ 60, nonce := zeros 32, k := k }

/-- `officered` with ceremonies. -/
def sitting (l : List Ceremony) : State := { officered with qrm := { cers := l } }

/-- An approval by officer 1, and its bytes. -/
def approve : Submission :=
  { number := 5, slot := 1, alg := 0x28, kcv := zeros 8, pk := zeros 1312, sig := zeros 2420, envelope := [] }
def approveBytes : List Byte :=
  leBytes 4 5 ++ leBytes 1 1 ++ leBytes 1 0x28 ++ zeros 10 ++ leBytes 2 1312 ++ leBytes 2 2420 ++ zeros (4 + 1312 + 2420)

/-- The approval passes where its signature verifies, and fails as AUTH_FAIL where it does not. -/
theorem approval_checks (s : State) (c : Ceremony) (ho : officersOf s c.scope = [officer1])
    (hm : bitOf (ruleOf s c.scope c.cls c.body).2 1 = true) (ht : ¬c.close ≤ s.mer.t + uTicks s) :
    submissionCheck s c approve = if approvalSigOk c approve then 0 else St.authFail := by
  have h : submitterOk s c approve = true := by
    simp only [submitterOk, approve, Submission.brings, ho, hm]
    simp [officer1, bitOf]
  simp only [submissionCheck, h, ht]
  cases approvalSigOk c approve <;> rfl

/-- A class 4 body that enters an AES-128 key by two components. -/
def entryBody : List Byte := leBytes 1 1 ++ leBytes 1 2 ++ zeros 14 ++ attrBytes (key 1).attrs ++ zeros 80

/-- A Drill body: injector 0 for an hour (R779), and a class 5 body of operation 2. -/
def drillBody : List Byte := leBytes 1 1 ++ zeros 7 ++ leBytes 4 3600 ++ zeros 4
def restoreBody : List Byte := leBytes 1 2 ++ zeros 1 ++ leBytes 2 1 ++ zeros 132

theorem witness_CeremoniesOpenAndComplete :
    (Asked officered ask desk ∧ Asked (sitting [cer 3 1 []]) ask desk ∧ qrmOn officered = true) ∧
    (scopeHas officered 0 2 = true ∧ bodyOk officered 0 2 createBytes = true ∧ bodyForm 2 createBytes = true ∧
      officered.lcf.holdWater = false ∧ SysServes officered 2) ∧
    (scopeHas officered 0 4 = true ∧ bodyOk officered 0 4 entryBody = true ∧ bodyForm 4 entryBody = true ∧
      keKind entryBody = 1) ∧
    (let s := { officered with rng := {} }; sysReady s = false ∧ qrmOn s = true) ∧
    (scopeHas officered 0 2 && bodyOk officered 0 2 []) = false ∧ parseOpen [] = none ∧
    (∀ y ∈ officered.qrm.cers, y.number = fieldAt approveBytes 0 4 → y.state ≠ .open) ∧
    (fieldAt approveBytes 0 4 = 5 ∧ parseSubmission (cer 3 2 []) [] = none ∧
      parseSubmission (cer 3 2 []) approveBytes = some approve) ∧
    (let c := { cer 3 2 [] with slots := [1] }
     TheCeremony (sitting [c]) 5 c ∧ c.state = .open ∧ approve.slot ∈ c.slots ∧
       parseSubmission c approveBytes = some approve) ∧
    (let c := cer 3 2 []
     TheCeremony (sitting [c]) 5 c ∧ approve.slot ∉ c.slots ∧ c.slots.length + 1 < c.k) ∧
    (let c := cer 3 1 []; TheCeremony (sitting [c]) 5 c ∧ c.k ≤ c.slots.length + 1 ∧ c.cls = 3 ∧
       effective (sitting [c]) 27 ≤ 1) ∧
    (let c := cer 7 1 drillBody
     TheCeremony (sitting [c]) 5 c ∧ c.k ≤ c.slots.length + 1 ∧ c.cls = 7 ∧ parseSubmission c approveBytes = some approve) ∧
    (let c := cer 5 1 restoreBody; let p := leBytes 4 5 ++ zeros 3 ++ leBytes 1 1 ++ leBytes 8 0 ++ [0xAA]
     TheCeremony (sitting [c]) 5 c ∧ takesInput (sitting [c]) c = true ∧ (sitting [c]).lcf.holdWater = false ∧
       fieldAt p 0 4 = 5 ∧ 16 < p.length ∧ rsvdOk p 4 3 = true ∧ fieldAt p 7 1 = 1 ∧ fieldAt p 8 8 = c.input.length ∧
       fieldAt (leBytes 4 5 ++ zeros 4 ++ leBytes 8 9 ++ [0xAA]) 8 8 ≠ c.input.length) ∧
    (let c := cer 3 1 []; let p := leBytes 4 5 ++ zeros 12 ++ leBytes 4 8192 ++ zeros 4
     TheCeremony (sitting [c]) 5 c ∧ fieldAt p 0 4 = 5 ∧ p.length = 24 ∧ rsvdOk p 4 4 = true ∧ rsvdOk p 20 4 = true ∧
       fieldAt p 16 4 = 8192) ∧
    (let p := zeros 2 ++ leBytes 1 3 ++ zeros 5
     p.length = 8 ∧ fieldAt p 0 2 ≤ 4096 ∧ rsvdOk p 3 5 = true ∧ latestCer officered (fieldAt p 0 2) (fieldAt p 2 1) = none ∧
       latestCer (sitting [cer 3 1 []]) (fieldAt p 0 2) (fieldAt p 2 1) = some (cer 3 1 [])) ∧
    (let c := cer 3 1 []; TheCeremony (sitting [c]) 5 c ∧ (sitting [c]).mer.t < c.close) ∧
    (let c := { cer 3 1 [] with close := 2 ^ 32, state := .complete }
     TheCeremony (sitting [c]) 5 c ∧ c.close ≤ (sitting [c]).mer.t ∧ c.reservedBy = none) ∧
    (let c := { cer 3 1 [] with close := 2 ^ 32, state := .carriedOut, doneAt := some 0 }
     let s := { sitting [c] with mer := { t := 2 ^ 32, elapsed := 4800000000 } }
     TheCeremony s 5 c ∧ c.close ≤ s.mer.t ∧ c.doneAt = some 0 ∧ 0 + 4800000000 ≤ s.mer.elapsed) := by
  dsimp only [SysServes, Serves, TheCeremony]
  refine ⟨⟨⟨?_, ?_, ?_, ?_, ?_⟩, ⟨?_, ?_, ?_, ?_, ?_⟩, ?_⟩, ?_⟩ <;> and_intros <;> decide +kernel

/-- The checks of the approvals above depend on their signature alone. -/
theorem witness_ApprovalsPass :
    ∀ c ∈ [{ cer 3 2 [] with slots := [1] }, cer 3 2 [], cer 3 1 [], cer 7 1 drillBody],
      submissionCheck (sitting [c]) c approve = if approvalSigOk c approve then 0 else St.authFail := by
  intro c hc
  simp only [List.mem_cons, List.not_mem_nil, or_false] at hc
  obtain rfl | rfl | rfl | rfl := hc <;>
    exact approval_checks _ _ rfl (by decide +kernel) (by decide +kernel)


/-! ### The pair -/

/-- `managed` as one unit of a pair in a state, with the pair block enabled. -/
def paired (st : PairState) : State :=
  { managed with
    regs := [(winBase 12 0 + 4, 1), (winBase 13 0 + 4, 1)] ++ managed.regs
    prl := { state := st, paired := true, linkUp := true, epochKnown := true, fence := true } }

/-- The peer's next frame. -/
def said : Plp := { epoch := 0, seq := 0, ack := 0, alive := true }

theorem hears (s : State) (h : s.drl = {}) (hp : s.prl = (paired s.prl.state).prl ∧ s.pwr.mainPower = true)
    (hr : roleOf s ≠ .isolated) : Hears s said := by
  refine ⟨noDrill_of_reset _ h, ?_, hp.2, rfl, rfl, rfl, ?_, ?_, ?_, rfl, ?_, ?_, hr⟩ <;> rw [hp.1] <;> simp [paired, said]

/-- An entry of the divergence list. -/
def entry : DivEntry := { dom := 1, image := 1, version := 1, entry := 0 }

/-- A sampled request, an arbitration of it and a peer's re-run result. -/
def sampled : Sample :=
  { sess := 9, reqId := 4, inst := 3, dom := 1, queue := 5, entry := 0, deadline := 0, payload := [], snap := 0, csn := 0
    digest := [1], div := entry }

def arbs : List Arb :=
  [{ sample := sampled, own := [1] }, { sample := sampled, own := [1], rerun := some [2] },
   { sample := sampled, own := [1], rerun := some [1] }, { sample := sampled, own := [1], rerun := some [1], rounds := 2 }]

def rerunBy (d : Byte) (same : Bool) : ArbMsg := { sess := 9, reqId := 4, digest := [d], same := same, pass := true }

/-- `paired` with a change of the pair block. -/
def pairAs (f : Prl → Prl) (st : PairState) : State := { paired st with prl := f (paired st).prl }

theorem witness_PairMessagesAreTaken :
    (∀ st ∈ [PairState.active, .standby, .single, .joining], Hears (paired st) said ∧ roleOf (paired st) = st) ∧
    (∀ st ∈ [PairState.standby, .joining], let s := paired st
     (1 : Nat) = lastCsn s + 1 ∧ (2 : Nat) ≠ lastCsn s + 1 ∧ kscOn s = true) ∧ (paired .active).prl.peerJoining = false ∧
    kscOn { paired .standby with regs := [] } = false ∧
    (blockEn (paired .single) 12 0 = true ∧ (paired .single).ksc.baseCsn ≤ agreeCsn (paired .single) []) ∧
    (let s := pairAs (fun p => { p with peerJoining := true }) .single
     Hears s said ∧ roleOf s = .single ∧ s.prl.peerJoining = true ∧ s.prl.failover = false ∧ blockEn s 12 0 = true ∧ s.ksc.v = 0 ∧
       s.net.held = []) ∧
    (∀ n ∈ [0, 8], let s := pairAs (fun p => { p with
        samples := [sampled], arbitrations := List.replicate n { sample := { sampled with reqId := 5 }, own := [] } }) .active
      Hears s said ∧ s.prl.samples.find? (isReq · 9 4) = some sampled ∧ s.prl.arbitrations.length = n ∧ effective s 24 = 0 ∧
        s.prl.state ≠ .divergent) ∧
    (paired .active).prl.samples.find? (isReq · 9 4) = none ∧
    (∀ a ∈ arbs, let s := pairAs (fun p => { p with arbitrations := [a] }) .active
      Hears s said ∧ s.prl.arbitrations.find? (fun b => isReq b.sample 9 4) = some a ∧ effective s 24 = 0) ∧
    (([2] : List Byte) == [1]) = false ∧ ((rerunBy 3 false).pass && (rerunBy 3 false).same) = false ∧
    ((rerunBy 3 true).pass && (rerunBy 3 true).same) = true ∧ (rerunBy 3 true).digest ≠ [1] ∧ (rerunBy 1 true).digest = [1] ∧
    (paired .standby).prl.pendingRenounce = false ∧ (paired .standby).prl.aliveIn = false ∧
    (let s := pairAs (fun p => { p with aliveIn := true }) .standby; Hears s said ∧ s.prl.aliveIn = true) ∧
    (NoDrill (paired .active) ∧ (paired .active).prl.paired = true ∧ (paired .active).pwr.mainPower = true ∧
      (paired .active).prl.epochKnown = true ∧ roleOf (paired .active) ≠ .joining ∧
      { said with seq := 1 }.seq ≠ (paired .active).prl.rxSeq ∧ { said with epoch := 1 }.epoch ≠ (paired .active).prl.epoch ∧
      { said with rsvd := 1 }.rsvd ≠ 0 ∧
      unjoined (paired .active) = false) := by
  have hears' : ∀ (f : Prl → Prl) (st : PairState), roleOf (pairAs f st) ≠ .isolated →
      (f (paired st).prl).paired = true → (f (paired st).prl).epochKnown = true → (f (paired st).prl).epoch = 0 →
      (f (paired st).prl).rxSeq = 0 → (f (paired st).prl).linkUp = true → (f (paired st).prl).unacked = [] →
      Hears (pairAs f st) said := fun f st hr a b c d e g =>
    ⟨noDrill_of_reset _ rfl, a, rfl, rfl, rfl, rfl, b, c.symm, d.symm, rfl, e, (fun x hx => absurd (g ▸ hx) (by simp)), hr⟩
  refine ⟨?_, by decide +kernel, by decide +kernel, by decide +kernel, by decide +kernel, ⟨?_, by decide +kernel⟩, ?_, by decide +kernel, ?_,
    by decide +kernel, by decide +kernel, by decide +kernel, by decide +kernel, by decide +kernel, by decide +kernel,
    by decide +kernel, ⟨?_, by decide +kernel⟩, ⟨noDrill_of_reset _ rfl, by decide +kernel⟩⟩
  · intro st h
    refine ⟨hears' id st ?_ rfl rfl rfl rfl rfl rfl, ?_⟩ <;> revert st <;> decide +kernel
  · exact hears' _ _ (by decide +kernel) rfl rfl rfl rfl rfl rfl
  · intro n h
    refine ⟨hears' _ _ ?_ rfl rfl rfl rfl rfl rfl, ?_⟩ <;> revert n <;> decide +kernel
  · intro a h
    refine ⟨hears' _ _ ?_ rfl rfl rfl rfl rfl rfl, ?_⟩ <;> revert a <;> decide +kernel
  · exact hears' _ _ (by decide +kernel) rfl rfl rfl rfl rfl rfl

/-- A commit that follows the history, and one whose digest does not follow it, of a request. -/
theorem witness_commits_that_follow (s : State) (r : Option Requester) :
    let d := chainDigest (lastDigest s) (lastCsn s + 1) []
    let c : Commit := { csn := lastCsn s + 1, recs := [], requester := r, digest := d }
    (c.csn = lastCsn s + 1 ∧ c.digest = chainDigest (lastDigest s) (lastCsn s + 1) c.recs ∧ c.requester = r) ∧
      { c with digest := 0 :: d }.digest ≠ chainDigest (lastDigest s) (lastCsn s + 1) c.recs := by
  refine ⟨⟨rfl, rfl, rfl⟩, fun h => ?_⟩
  have := congrArg List.length h
  simp at this

/-- Active, the hand-back due in one second. -/
def handing : State := pairAs (fun p => { p with joined := true, handbackAt := some 5 }) .active

theorem witness_PairTimersAndRoles :
    NoDrill (paired .active) ∧ (paired .active).prl.lastTx + 800 ≤ (paired .active).mer.elapsed ∧
    (let s := pairAs (fun p => { p with unacked := [(0, 1, [])] }) .active
     s.prl.unacked ≠ [] ∧ s.prl.ackAt + 320 ≤ s.mer.elapsed ∧ { s with mer := { elapsed := 319 } }.mer.elapsed < s.prl.ackAt + 320) ∧
    ((paired .active).prl.linkUp = true ∧ (paired .active).prl.lastRx + 6400 ≤ (paired .active).mer.elapsed ∧
      roleOf (paired .active) = .active ∧ (paired .active).prl.aliveIn = false ∧ (paired .active).prl.peerYield = false) ∧
    (pairAs (fun p => { p with aliveIn := true }) .active).prl.aliveIn = true ∧
    (roleOf (paired .standby) = .standby ∧ (paired .standby).prl.pendingRenounce = false ∧
      ∀ m ∈ (paired .standby).ksc.commits, m.csn ≤ (paired .standby).ksc.v) ∧
    (pairAs (fun p => { p with linkUp := false }) .active).prl.linkUp = false ∧
    (pairAs (fun p => { p with pendingRenounce := true }) .standby).prl.pendingRenounce = true ∧
    (let s := pairAs (fun p => { p with pendingSolo := true }) .single
     s.prl.pendingRenounce = false ∧ s.prl.pendingSolo = true ∧ s.prl.failover = false ∧ s.prl.unacked = []) ∧
    (let s := pairAs (fun p => { p with pendingSolo := true, failover := true }) .single
     s.prl.failover = true ∧ s.net.sessions.Pairwise (fun a b => a.id ≠ b.id) ∧ talk ∈ s.net.sessions ∧ talk.port < 4 ∧
       talk.state ≠ .halfOpen) ∧
    (let s := pairAs (fun p => { p with solo := true }) .joining
     roleOf s = .joining ∧ s.prl.joinSent = false ∧ s.prl.joinStart + 32000000 ≤ s.mer.elapsed ∧ s.lcf.holdWater = false ∧
       s.prl.solo = true ∧ s.prl.renounced = false) ∧
    (let s := { pairAs (fun p => { p with preferred := true }) .joining with lcf := { stage := 8 } }
     roleOf s = .joining ∧ s.prl.solo = false ∧ s.lcf.stage ≠ 9 ∧ s.prl.preferred = true) ∧
    (let s := pairAs (fun p => { p with joined := true }) .active
     s.prl.state = .active ∧ s.prl.joined = true ∧ s.prl.preferred = false ∧ s.prl.arbitrations = [] ∧
       s.prl.handbackAt = none ∧ s.prl.paired = true ∧ blockEn s 12 0 = true ∧
       s.prl.standbySince + holdoff s ≤ { s with mer := { elapsed := 14400000000 } }.mer.elapsed) ∧
    roleOf (paired .standby) ≠ .active ∧
    (handing.prl.handbackAt = some 5 ∧ roleOf handing = .active ∧ handing.prl.joined = true ∧ handing.mer.t < 5) ∧
    (let s := { handing with mer := { t := 5 } }; 5 ≤ s.mer.t ∧ liveChains s = []) ∧
    (let s := (pairAs (fun p => { p with handbackAt := some 5, joined := true, yielding := true }) .active).setCore 0
        { item := some (chainOf []) }
     5 ≤ { s with mer := { t := 5 } }.mer.t ∧ liveChains s ≠ [] ∧ s.prl.yielding = true) ∧
    (let s := pairAs (fun p => { p with samples := [sampled, { sampled with reqId := 6, snap := 1 }] }) .standby
     let s := { s with cores := State.reset.cores }
     roleOf s = .standby ∧ s.prl.arbitrations = [] ∧ s.prl.samples.find? (isReq · 9 4) = some sampled ∧
       s.prl.samples.find? (isReq · 9 6) = some { sampled with reqId := 6, snap := 1 } ∧ s.ksc.v < 1 ∧
       sampled.snap ≤ s.ksc.v ∧ (∀ x ∈ liveChains s, x.sample = none) ∧ sampleDue s 9 5 = none ∧
       sampleDue s 9 4 = some sampled ∧ (freeCores s 0).head? = some 0 ∧
       mayAssign { s with regs := (0x00020004, 1) :: s.regs } 0 = true ∧
       boundEntry s (cfgAt s sampled.snap) (sampleItem s sampled) = some (image, 0) ∧
       (alGet (cfgAt s sampled.snap).queues sampled.queue).isSome = true) ∧
    (∀ a ∈ [[], [{ sample := sampled, own := [1] }]],
     let op := Op.svc .done 0 0 0; let x := { prog op with inst := 3, dom := 1, sample := some sampled }
     let s := pairAs (fun p => { p with samples := [sampled], arbitrations := a }) .standby
     settled (acting op {} [] s x) 0 = true ∧ CoreReady (busy x {} [] s) on0 op x 1 ∧ x.sample = some sampled ∧
       (busy x {} [] s).prl.arbitrations = a ∧ roleOf (busy x {} [] s) = .standby ∧
       (busy x {} [] s).prl.samples.any (isReq · 9 4) = true ∧
       ∀ b ∈ a, isReq b.sample 9 4 = true ∧ b.rerun = none ∧ b.peer = none) := by
  dsimp only [CoreReady]; refine ⟨noDrill_of_reset _ rfl, ?_⟩; and_intros <;> decide +kernel

/-! ### Memory protection and alarms -/

/-- `paired` as SINGLE with a change of the memory block. -/
def guarding (m : Mec) : State := { paired .single with mec := m }

theorem witness_MemoryProtectionAdvances :
    ((guarding { sweeps := [{ region := 3 }] }).mec.sweeps = [{ region := 3 }] ∧
      (guarding { sweeps := [{ region := 3 }] }).mec.rebuilds = []) ∧
    (guarding { sweeps := [{ region := 3, rebuild := true }] }).mec.sweeps = [{ region := 3, rebuild := true }] ∧
    (let s := guarding { masterRunning := true, boundary := 1, masterNew := zeros 32
                         regions := [(0, { gen := 2, poison := [(1, 1)] })] }
     s.mec.sweeps = [] ∧ s.mec.masterRunning = true ∧ s.mec.boundary < s.variant.regions ∧
       s.mec.regions.Pairwise fun a b => a.1 ≠ b.1) ∧
    ((guarding {}).mec.masterRunning = false ∧ blockEn (guarding {}) 13 0 = true ∧ (guarding {}).mec.paused = false ∧
      SysServes (guarding {}) 1 ∧ (∃ k, Draws (guarding {}) .mec 32 k) ∧
      (guarding {}).mer.elapsed < (guarding {}).mec.drawnAt + masterPeriod (guarding {}) ∧
      (guarding {}).mec.drawnAt + masterPeriod (guarding {}) ≤ 24 * 3600 * 16000000) ∧
    ((guarding { paused := true }).mec.paused = true ∧ (guarding { paused := true }).mec.masterDue = false) ∧
    (let s := { guarding { paused := true, masterDue := true } with rng := {} }
     s.mec.paused = true ∧ s.mec.masterDue = true ∧ sysReady s = false) ∧
    ((guarding {}).apu.pending = false ∧ { guarding {} with apu := { pending := true } }.apu.pending = true) ∧
    (debugLevel (guarding {}) = 0) ∧
    (let s := { guarding {} with dbg := { level := 2 } }
     debugLevel s = 2 ∧ debugFits s.variant 0x0110000000 8 = true ∧ debugLocked s.variant 0x0110000000 = true ∧
       (lcState s).factory = false ∧ lcState s ≠ .deployed) ∧
    (let s := { refusing with apu := { active := [((96, 0), { start := 0, end_ := 2 ^ 40, attr := 255 }),
        ((72, 0), { start := 0, end_ := 2 ^ 40, attr := 255 })] } }
     let x (k : Kind) : Machine.Access := { init := 72, target := 96, priv := true, dom := 0, kind := k }
     (lcState s).factory = true ∧ 63 < s.variant.cores ∧ 65528 + 8 ≤ 65536 ∧
       apuRefuses s (x .read) (0x0110000000 + 63 * 0x10000 + 65528) 8 = none ∧
       apuRefuses s (x .write) (0x0110000000 + 63 * 0x10000 + 65528) 8 = none) := by
  dsimp only [SysServes, Serves]; and_intros <;> first | decide +kernel | exact draws (by decide +kernel)

/-- `guarding` in a factory state with one written DRAM line and rules that allow the debug port everything. -/
def lined (l k : Nat) (old : List Byte) : State :=
  let s := guarding { master := zeros 32 }
  { s with
    regs := (0x000E0004, 1) :: s.regs
    lcf := { s.lcf with held := some 0 }
    mec := { s.mec with dram := [(l, sealLine (regionKey s.mec (regionOfLine l)) l k old)] }
    apu := { active := [((72, 0), { start := 0, end_ := 2 ^ 40, attr := 255 }), ((97, 0), { start := 0, end_ := 2 ^ 40, attr := 255 })] } }

/-- The last line before the SS areas, at its last counter that starts no rekey (R660, R661). -/
theorem witness_dram_lines :
    let q : Nat × Nat := (0x40000000 + 46 * 1024 * 16384 - 1, 16711678)
    let s := lined q.1 q.2 (zeros 64)
    let x (k : Kind) : Machine.Access :=
      { init := 72, target := (targetOf s.variant (64 * q.1)).getD 0, priv := true, dom := 0, kind := k }
    (lcState s).factory = true ∧ blockEn s 13 0 = true ∧ debugFits s.variant (64 * q.1) 64 = true ∧
      0x40000000 ≤ q.1 ∧ regionOfLine q.1 < areaStart s.variant 46 ∧ linePoisoned s q.1 = false ∧ 0 < q.2 ∧ q.2 < 16711679 ∧
      apuRefuses s (x .read) (64 * q.1) 64 = none ∧ apuRefuses s (x .write) (64 * q.1) 64 = none ∧
      alGet s.mec.dram q.1 = some (sealLine (regionKey s.mec (regionOfLine q.1)) q.1 q.2 (zeros 64)) := by
  refine ⟨by decide +kernel, by decide +kernel, by decide +kernel, by decide +kernel, by decide +kernel, by decide +kernel,
    by decide, by decide, by decide +kernel, by decide +kernel, rfl⟩

/-- `keeping` with a change of Binnacle. -/
def watching (b : Bin) : State := { keeping with bin := b }

/-- Sources whose condition is present. -/
def present : Vector Source 29 := Vector.replicate 29 { active := true }

/-- A latched event. -/
def event : Evidence := { rtc := 0, src := 8, resp := 2, phase := 0, flags := 0, stage := 9, cycles := 0, detail := 0, optime := 0 }

theorem armed : ∀ n < 29, Armed keeping n := by
  intro n h
  refine ⟨h, ?_, ?_, ?_, ?_⟩ <;> revert n <;> decide +kernel

theorem witness_AlarmSourcesFire :
    (∀ n < 29, Armed keeping n) ∧ ((65535 : Nat) % 65536 ≠ 0 ∧ (2699 : Nat) < 2700) ∧
    (let s := { keeping with pwr := {} }; Armed s 14 ∧ s.pwr.mainPower = false) ∧
    ((-31 : Int) < -30 ∧ (90 : Int) < 91 ∧ keeping.pwr.downRunning = false) ∧
    { keeping with pwr := { downRunning := true } }.pwr.downRunning = true ∧
    (sourceOf (watching { sources := present }) 17).active = true ∧
    (let s := { watching { sources := Vector.replicate 29 { absentAt := some 0 }, throttle := [3] } with mer := { elapsed := 160000000 } }
     s.bin.throttle ≠ [] ∧ ∀ n ∈ s.bin.throttle, (sourceOf s n).active = false ∧ ∃ a ∈ [0],
       (sourceOf s n).absentAt = some a ∧ a + 160000000 ≤ s.mer.elapsed) ∧
    (let s := watching { sources := present, throttle := [3] }; s.bin.throttle ≠ [] ∧ ∀ n ∈ s.bin.throttle, (sourceOf s n).active = true) ∧
    (let s := watching { pend := [event] }
     s.bin.pend = [event] ∧ s.pwr.mainPower = true ∧ 2 ≤ event.resp ∧ s.bin.used + 1 < s.variant.evidence) ∧
    (let s := watching { pend := [event], used := 10000000 }; s.variant.evidence ≤ s.bin.used) ∧
    (binnacleFed State.reset = false ∧ binnacleFed keeping = true) ∧ (∀ n < 8, loopFails keeping n ⟨0, []⟩ = false) ∧
    (∀ n < 8, loopFails keeping n ⟨3, [true, true]⟩ = true) := by
  refine ⟨armed, ?_, ⟨⟨?_, ?_, ?_, ?_, ?_⟩, ?_⟩, ?_⟩ <;> and_intros <;> decide +kernel


/-! ### Chapters 18 to 21 -/

/-- OTP words of PROVISIONING (R736). -/
def provisioningWords : Vector (BitVec 16) 24 := Vector.ofFn fun i => if i.val < 18 then lcPattern (i.val + 1) else 0

/-- `managed` in a start at a stage and a life-cycle state, with no `en` bit set. -/
def starting (n lc : Nat) : State :=
  { managed with
    regs := [], lcf := { stage := n, held := some lc }, pwr := { managed.pwr with starting := true }, prl := {}
    ksc := { base := config, durable := 1, commits := journal.ksc.commits } }

/-- A start with other values in the life-cycle block, and in the key store or Binnacle. -/
def startWith (n : Nat) (l : Lcf) (k : Ksc := {}) (b : Bin := {}) : State :=
  { starting n 18 with lcf := { l with stage := n }, ksc := k, bin := b }

/-- A slot that holds a firmware image. -/
def goodFw : FwSlot := { valid := true }

theorem witness_StartStagesRunInOrder :
    (atStage (starting 0 18) 0 = true ∧ (starting 0 18).pwr.startAt ≤ (starting 0 18).mer.elapsed ∧
      (let s := { starting 0 18 with pwr := { (starting 0 18).pwr with startAt := 2 ^ 40 } }
       atStage s 0 = true ∧ s.mer.elapsed < s.pwr.startAt)) ∧
    (atStage (starting 1 18) 1 = true ∧ (starting 1 18).bin.pend = [] ∧ (starting 1 18).bin.overflow = 0 ∧
      (starting 1 18).bin.firstPower = false ∧ (starting 1 18).bin.used < (starting 1 18).variant.evidence) ∧
    (let s := startWith 1 {} {} { used := 10000000 }; atStage s 1 = true ∧ s.variant.evidence ≤ s.bin.used) ∧
    (let s := startWith 1 {} {} { pend := [event] }; atStage s 1 = true ∧ s.bin.pend ≠ [] ∧ s.bin.used < s.variant.evidence) ∧
    (fuseDue (starting 2 18) = true ∧ (starting 2 18).lcf.stage = 2 ∧ (starting 2 18).lcf.deferredFailure = 0 ∧
      openTransition (starting 2 18) = none ∧ lcState (starting 2 18) = .provisioning) ∧
    (lcState (starting 2 0) = .raw ∧ lcState (starting 2 21) = .scrapped ∧
      lcState (startWith 2 { words := Vector.replicate 24 1 }) = .invalid) ∧
    (let s := startWith 2 { held := some 18, progress := [{ code := 5, marks := 1 }] }
     fuseDue s = true ∧ (openTransition s).isSome = true ∧ lcState s ≠ .scrapped) ∧
    (let s := startWith 2 { words := provisioningWords, progress := [{ code := 6, marks := 1 }] }
     fuseDue s = true ∧ openTransition s = some { code := 6, marks := 1 } ∧ s.lcf.held = none ∧ lcWords s = some 18) ∧
    (let s := startWith 3 { held := some 18, slotAFw := goodFw }
     coxDue s = true ∧ lcState s ≠ .scrapped ∧ s.lcf.deferredFailure = 0 ∧ fwOk s s.lcf.slotAFw = true) ∧
    (let s := startWith 0 { held := some 18, slotBFw := goodFw, deferredFailure := 1 }
     coxDue s = true ∧ s.lcf.deferredFailure ≠ 0 ∧ fwOk s s.lcf.slotBFw = true) ∧
    (let s := startWith 3 { held := some 18, floor := 1, slotAFw := goodFw }
     coxDue s = true ∧ fwOk s s.lcf.slotAFw = false ∧ fwOk s s.lcf.slotBFw = false) ∧
    (atStage (starting 4 18) 4 = true ∧ selfTestCode (starting 4 18) {} = 0 ∧ allSeeded (starting 4 18) = true ∧
      lcState (starting 4 18) ≠ .rma ∧ lcState (starting 4 20) = .rma ∧ allSeeded (starting 4 20) = true ∧
      row1Fails (starting 4 18).variant { row3 := false } = false ∧ (engineOf (starting 4 18) .hash 0).katFail = false) ∧
    (let s := { starting 4 18 with rng := { src := Vector.replicate 4 .retired } }
     atStage s 4 = true ∧ row1Fails s.variant {} = false ∧ ∃ n < 4, srcOf s n = .retired) ∧
    (atStage (starting 5 18) 5 = true ∧ (starting 5 18).bin.share = false) ∧
    (let s := startWith 5 { held := some 18 } {} { share := true }
     atStage s 5 = true ∧ s.bin.share = true ∧ (s.lcf.pufHelper.isSome && true) = false) ∧
    (∀ c ∈ [some [1], none], ∀ lc ∈ [18, 19],
     let s := startWith 5 { held := some lc, pufHelper := some (zeros 64) } { rootCheck := c } { share := true }
     atStage s 5 = true ∧ s.bin.share = true ∧ s.lcf.pufHelper.isSome = true ∧ s.ksc.rootCheck = c ∧
       (lcState s = .provisioning ↔ lc = 18)) ∧
    (atStage (starting 6 18) 6 = true ∧ SysServes (starting 6 18) 1 ∧ ∃ k, Draws (starting 6 18) .mec 32 k) ∧
    (atStage (starting 7 19) 7 = true ∧ lcState (starting 7 19) ≠ .provisioning ∧
      ∃ m ∈ (starting 7 19).ksc.commits, max (starting 7 19).ksc.die0 (starting 7 19).ksc.die1 < m.csn) ∧
    (let s := starting 7 18
     atStage s 7 = true ∧ lcState s = .provisioning ∧ s.ksc.own = none ∧ SysServes s 4) ∧
    (startWith 7 {} { own := some { identity := [], attest := [], backup := [] } }).ksc.own.isSome = true ∧
    (∀ r ∈ [true, false], ∀ p ∈ [true, false], let s := { starting 8 18 with prl := { retired := r, paired := p } }
      atStage s 8 = true ∧ s.prl.state = .undecided ∧ s.prl.retired = r ∧ s.prl.paired = p) := by
  dsimp only [SysServes, Serves]; and_intros <;> first | decide +kernel | exact draws (by decide +kernel)

/-- `managed` with an open transition that runs. -/
def transiting (code marks : Nat) (l : Lcf := {}) : State :=
  { managed with lcf := { l with progress := [{ code := code, marks := marks }], running := true } }

/-- TEST_LOCKED with the last token left. -/
def lockedUp : State :=
  { managed with lcf := { held := some 1, tokensUsed := 0x7F, badTokens := 15, tokens := List.replicate 8 (sha3_256 [1]) } }

theorem witness_token_matches : lockedUp.lcf.tokens[7]? = some (sha3_256 [1]) := rfl

theorem witness_PowerAndLifeCycle :
    (State.reset.pwr.pwrGood = false ∧ State.reset.pwr.resetN = true ∧ State.reset.pwr.downRunning = false ∧
      State.reset.pwr.mainPower = false ∧ { State.reset with pwr := { resetN := false } }.pwr.resetN = false) ∧
    managed.pwr.mainPower = true ∧
    (let s := { State.reset with pwr := { pwrGood := true, resetN := false } }
     s.pwr.mainPower = false ∧ s.pwr.resetN = false ∧ s.pwr.pwrGood = true ∧ s.pwr.downRunning = false) ∧
    (State.reset.pwr.vmainOk = false ∧ binnacleFed State.reset = false ∧ binnacleFed { State.reset with bin := { vbat := 1 } } = true) ∧
    (let s := { State.reset with pwr := { downRunning := true } }
     s.pwr.downRunning = true ∧ s.pwr.mainPower = false ∧ s.pwr.pwrGood = false) ∧
    (let s := { State.reset with pwr := { downRunning := true, startAsked := true, pwrGood := true } }
     s.pwr.downRunning = true ∧ s.pwr.startAsked = true ∧ s.pwr.pwrGood = true ∧ s.pwr.resetN = true ∧ s.pwr.mainPower = false) ∧
    (∀ c ∈ [(6, 0), (6, 1)], openTransition (transiting c.1 c.2) = some { code := c.1, marks := c.2 } ∧
      (transiting c.1 c.2).pwr.mainPower = true ∧
      (transiting c.1 c.2).lcf.running = true ∧ stepReady (transiting c.1 c.2) { code := c.1, marks := c.2 } c.2 = true) ∧
    (let s := transiting 5 1 { words := provisioningWords }
     openTransition s = some { code := 5, marks := 1 } ∧ s.lcf.restartAfter = false ∧ s.lcf.held = none ∧ lcWords s = some 18) ∧
    stepReady (transiting 5 0) { code := 5, marks := 0 } ({ code := 5, marks := 0 } : Progress).next = false ∧
    managed.lcf.running = false ∧
    (let s := lockedUp
     lcState s = .testLocked ∧ s.lcf.badTokens < 16 ∧ bitOf s.lcf.tokensUsed 7 = false ∧
       (∀ i < 7, bitOf s.lcf.tokensUsed i = true) ∧ mayTransit s = true ∧
       { s with lcf := { s.lcf with tokens := [] } }.lcf.tokens[7]?.isNone = true) ∧
    16 ≤ { managed with lcf := { badTokens := 16 } }.lcf.badTokens ∧
    (mayTransit managed = true ∧ mayTransit { managed with lcf := {} } = true ∧ lcState { managed with lcf := {} } = .raw ∧
      lcState { managed with lcf := { held := some 2 } } = .testUnlocked ∧ lcState { managed with lcf := { held := some 19 } } = .deployed) := by
  and_intros <;> decide +kernel

/-- A Log record. -/
def record : LogRec := { event := 1, source := 0, sev := 0 }

/-- `managed` with the Log, power and Drill blocks enabled. -/
def running' : State :=
  { managed with regs := [(winBase 17 0 + 4, 1), (winBase 18 0 + 4, 1), (winBase 20 0 + 4, 1)] ++ managed.regs }

/-- The last injector. -/
def injecting (x : Injector) : State := { running' with drl := { inj := vset (Vector.replicate 5 {}) 4 x } }

theorem witness_LogProfilesAndDrill :
    (let s := { running' with log := { undrained := 1, wptr := 0, ring := [(ringSize - 1, record)] } }
     s.pwr.mainPower = true ∧ blockEn s 17 0 = true ∧ 0 < s.log.undrained ∧
       alGet s.log.ring ((s.log.wptr + ringSize - s.log.undrained) % ringSize) = some record) ∧
    running'.log.frozen = none ∧
    (let s := { running' with log := { frozen := some 0 }, mer := { elapsed := 160000000 } }
     s.log.frozen = some 0 ∧ 0 + 160000000 ≤ s.mer.elapsed ∧ running'.mer.elapsed < 0 + 160000000) ∧
    (let s := { running' with log := { optime := 60 } }; s.log.savedOptime + 60 ≤ s.log.optime) ∧
    (rbit running' 0x00110800 12 = true ∧ rbit { running' with regs := [(0x00110800, 3)] } 0x00110800 12 = false) ∧
    (∀ f ∈ [true, false], let s := { running' with pwr := { pending := some ({ code := 2 }, 0), forced := f } }
      s.pwr.pending = some ({ code := 2 }, 0) ∧ 0 ≤ s.mer.t ∧ s.pwr.forced = f ∧ s.pwr.unforceAt = none) ∧
    (let s := { running' with pwr := { forced := true, unforceAt := some 0 } }
     s.pwr.pending = none ∧ s.pwr.forced = true ∧ s.pwr.unforceAt = some 0) ∧
    (let s := { running' with pwr := { goingDown := [39] } }; 39 ∈ s.pwr.goingDown ∧ domainBusy s 39 = false) ∧
    domainBusy (running'.setCore 8 { item := some (chainOf []) }) 2 = true ∧
    (blockEn running' 18 0 = true ∧ capDw running'.variant running'.pwr.effective < 1101 ∧ running'.pwr.limiting = false ∧
      1066 * 100 < 97 * capDw running'.variant running'.pwr.effective ∧
      97 * capDw running'.variant running'.pwr.effective ≤ 1067 * 100) ∧
    (injPresent running' 4 = true ∧ injPresent running' 5 = false ∧
      injPresent { running' with variant := .wx7440 } 2 = false) ∧
    (blockEn running' 20 0 = true ∧ (injOf running' 4).armed = false ∧ lcState running' ≠ .deployed ∧
      SysServes running' 1 ∧ ∃ b, Draws running' .unit 4 b) ∧
    (let s := { running' with lcf := { held := some 19 } }; lcState s = .deployed ∧ (injOf s 4).permit = none) ∧
    (let h : HeldFrame := { frame := .send (.arp 0 7 none), left := 1, since := 0 }; let s := injecting { held := [h] }
     (injOf s 4).held = [h] ∧ h.frame = .send (.arp 0 7 none) ∧ h.since + 1600 ≤ s.mer.elapsed ∧
       { s with mer := { elapsed := 1599 } }.mer.elapsed < h.since + 1600 ∧ h.left ≠ 0) ∧
    (let s := injecting { permit := some 0 }; (injOf s 4).permit = some 0 ∧ 0 ≤ s.mer.t ∧ ∀ k < 5, (injOf s k).held = []) ∧
    (let s := { injecting { drops := 1 } with mer := { elapsed := 16000 } }
     (injOf s 4).ms < s.mer.elapsed / 16000 ∧ 0 < (injOf s 4).drops ∧
       { s with mer := { elapsed := 15999 } }.mer.elapsed / 16000 ≤ (injOf s 4).ms) ∧
    ( (injOf running' 4).drops = 0 ∧ (injOf running' 4).corrupts = 0 ∧
      (injOf running' 4).others = 0) := by
  dsimp only [SysServes, Serves]; and_intros <;> first | decide +kernel | exact draws (by decide +kernel)

theorem witness_SmbusTargetAnswers :
    smbServes State.reset = false ∧ smbServes managed = true ∧
    (let s := { managed with smb := { alert := true } }; smbServes s = true ∧ s.smb.alert = true) ∧ managed.smb.alert = false ∧
    (let wr := smbAddr managed false; ∀ req ∈ [[1], [2], [3], [4], [5], [0x10, 1, (31 : Byte)]],
      (∀ p ∈ [none, some (pec (wr :: req))], p = none ∨ p = some (pec (wr :: req))) ∧
        ¬ (some (pec (wr :: req) + 1) = none ∨ some (pec (wr :: req) + 1) = some (pec (wr :: req)))) := by
  and_intros <;> decide +kernel

/-! ### Decoding and memories -/

theorem witness_DecodeAndEncodeAgree :
    (Op.reg .add 3 1 2).wf = true ∧ ((0xFC000D18 : Nat) < 2 ^ 32 ∧ (0x2C84004C : Nat) < 2 ^ 32) ∧
    decodeWords (0x00611000 :: [7]) = .op (.reg .add 3 1 2) 1 ∧
    decodeWords (0xFC000D18 :: 0x2C84004C :: []) = .op (.imm .lih 4 4 true 0x0D18004C) 2 := by decide

theorem witness_MemoriesStayCanonical :
    Canonical { State.reset with pending := [.meridianTick 0] } ∧
      (match step { State.reset with pending := [.meridianTick 0] } with | .next _ => true | _ => false) = true := by
  refine ⟨⟨by decide +kernel, (fun w h => absurd h (by simp [State.reset])), fun k => ?_⟩, by decide +kernel⟩
  by_cases h : k < 8
  · revert k; decide +kernel
  · simp [vget, h]; decide

/-- `Instr.unitsOk` refuses a command that names a unit, port or source that the family does not have (Table 0.1). -/
theorem test_units_refused :
    ∀ c ∈ [Instr.cipherJobStart .cipher 16, .cipherJobStart .check 9, .cipherJobComplete 16, .cvupdJobComplete 9, .bneJobStart 16,
      .lteJobStart 8, .dispatch 8, .healthTestFailure 4 { before := [], window := [] }, .drbgReseed 9, .discardedFrame { port := 5, hdr := {} },
      .hostPortLinkChange 5 true, .drillArm 5, .add { core := 0 } 0 0 0], c.wf = false := by decide

/-- CRC-32C of "123456789" is 0xE3069283 (chapter 10, R467 to R469: reflected in and out, all ones before and after). -/
theorem test_crc32c :
    let c : CvCtx := { width := 32, reflIn := true, reflOut := true, poly := 0x1EDC6F41, init := 0xFFFFFFFF, xorOut := 0xFFFFFFFF }
    cvResult { c with reg := crcBytes c c.init (("123456789".toList).map fun a => BitVec.ofNat 8 a.toNat) } = 0xE3069283 := by
  decide +kernel

end Sys2Proof.Tests
end

section
/-! PROOFS. The multiplier and the divider give what Table 4.5, R170 and R171 state. -/

namespace Sys2Proof.Machine

open Sys2Proof.Claims

/-- A number in the signed range of a word is the value of the word built from it. -/
theorem toInt_ofInt_of_range {z : Int} (h : -2 ^ 63 ≤ z ∧ z < 2 ^ 63) : (BitVec.ofInt 64 z).toInt = z := by
  rw [BitVec.toInt_ofInt, Int.bmod_def]
  split <;> omega

/-- A number below 2^64 is the value of the word built from it. -/
theorem toNat_ofNat_of_lt {n : Nat} (h : n < 2 ^ 64) : (BitVec.ofNat 64 n).toNat = n := by
  rw [BitVec.toNat_ofNat, Nat.mod_eq_of_lt h]

/-- The signed range of a word. -/
theorem toInt_range (a : Word) : -2 ^ 63 ≤ a.toInt ∧ a.toInt < 2 ^ 63 :=
  ⟨BitVec.le_toInt a, BitVec.toInt_lt⟩

theorem toInt_ne_zero {a : Word} (h : a ≠ 0) : a.toInt ≠ 0 :=
  fun hz => h (BitVec.toInt_inj.mp (by simpa using hz))

/-- The upper half of a product whose first factor is signed, the second signed or unsigned, lies in the signed range. -/
theorem upperHalf_range {m n : Int} (hm : -2 ^ 63 ≤ m ∧ m < 2 ^ 63) (hn : n.natAbs < 2 ^ 64) :
    -2 ^ 63 ≤ m * n / 2 ^ 64 ∧ m * n / 2 ^ 64 < 2 ^ 63 := by
  have h : (m * n).natAbs ≤ 2 ^ 63 * (2 ^ 64 - 1) := by
    rw [Int.natAbs_mul]
    exact Nat.mul_le_mul (by omega) (by omega)
  omega

/-- Only the overflow of R171 takes a quotient out of the signed range. -/
theorem tdiv_range {a b : Word} (hb : b ≠ 0) (ho : ¬(a.toInt = -2 ^ 63 ∧ b.toInt = -1)) :
    -2 ^ 63 ≤ a.toInt.tdiv b.toInt ∧ a.toInt.tdiv b.toInt < 2 ^ 63 := by
  have ha := toInt_range a
  have hq := Int.natAbs_tdiv a.toInt b.toInt
  have hz : b.toInt ≠ 0 := toInt_ne_zero hb
  by_cases h1 : b.toInt = 1
  · rw [h1, Int.tdiv_one]; exact ha
  · by_cases hn : b.toInt = -1
    · rw [hn, Int.tdiv_neg, Int.tdiv_one]; omega
    · have half : (a.toInt.tdiv b.toInt).natAbs ≤ a.toInt.natAbs / 2 := by
        rw [hq]; exact Nat.div_le_div_left (by omega) (by decide)
      omega

/-- A remainder is smaller than the divisor, so it lies in the signed range. -/
theorem tmod_range (a : Word) {b : Word} (hb : b ≠ 0) :
    -2 ^ 63 ≤ a.toInt.tmod b.toInt ∧ a.toInt.tmod b.toInt < 2 ^ 63 := by
  have hr := toInt_range b
  have hz : b.toInt ≠ 0 := toInt_ne_zero hb
  have hm : (a.toInt.tmod b.toInt).natAbs < b.toInt.natAbs := by
    rw [Int.natAbs_tmod]; exact Nat.mod_lt _ (by omega)
  omega

/-- `mulResult` computes Table 4.5, with R170 for a divisor of zero and R171 for the overflow. -/
theorem mulResult_gives (f : MulOp) (a b : Word) : MulOpGives f a b (mulResult f a b) := by
  have ha := toInt_range a
  have hb := toInt_range b
  cases f with
  | mul => exact BitVec.toNat_mul a b
  | mulh => exact toInt_ofInt_of_range (upperHalf_range ha (by omega))
  | mulhu =>
    have h : a.toNat * b.toNat ≤ (2 ^ 64 - 1) * (2 ^ 64 - 1) := Nat.mul_le_mul (by omega) (by omega)
    exact toNat_ofNat_of_lt (by omega)
  | mulhsu => exact toInt_ofInt_of_range (upperHalf_range ha (by omega))
  | div =>
    by_cases hz : b = 0
    · simp [MulOpGives, mulResult, hz]
    · by_cases ho : a.toInt = -2 ^ 63 ∧ b.toInt = -1
      · obtain ⟨h1, h2⟩ := ho
        simp only [MulOpGives, mulResult, if_neg hz, h1, h2]
        decide
      · simp only [MulOpGives, mulResult, if_neg hz, if_neg ho]
        exact toInt_ofInt_of_range (tdiv_range hz ho)
  | divu =>
    by_cases hz : b = 0
    · simp [MulOpGives, mulResult, hz]
    · simp only [MulOpGives, mulResult, if_neg hz]
      exact toNat_ofNat_of_lt (Nat.lt_of_le_of_lt (Nat.div_le_self _ _) a.isLt)
  | rem =>
    by_cases hz : b = 0
    · simp [MulOpGives, mulResult, hz]
    · by_cases ho : a.toInt = -2 ^ 63 ∧ b.toInt = -1
      · obtain ⟨h1, h2⟩ := ho
        simp only [MulOpGives, mulResult, if_neg hz, h1, h2]
        decide
      · simp only [MulOpGives, mulResult, if_neg hz, if_neg ho]
        exact toInt_ofInt_of_range (tmod_range a hz)
  | remu =>
    by_cases hz : b = 0
    · simp [MulOpGives, mulResult, hz]
    · simp only [MulOpGives, mulResult, if_neg hz]
      exact toNat_ofNat_of_lt (Nat.lt_of_le_of_lt (Nat.mod_le _ _) a.isLt)

/-- A command that issues a multiply or a divide runs it. -/
theorem exec_of_op_mul {c : Instr} {i : Issue} {f : MulOp} {d a b : GReg} (h : Instr.op? c = some (i, .mul f d a b))
    (s : State) : exec c s = .next (runMul i f d a b s) := by
  unfold Instr.op? at h
  split at h
  all_goals cases h
  all_goals rfl

end Sys2Proof.Machine
end

section
/-! PROOFS. What the decoder of chapter 04 answers: an instruction has an encoding (R207), and it takes two words exactly when
a prefix stands before it (R162). -/

namespace Sys2Proof

open Sys2Proof.Machine

/-- An unprefixed operation that is kept has an encoding. -/
theorem keepWf_spec {op o : Op} (h : keepWf op = some o) (hp : Op.prefixed op = false) :
    o.wf = true ∧ Op.prefixed o = false := by
  obtain ⟨hw, rfl⟩ : op.wf = true ∧ op = o := by simpa [keepWf] using h
  exact ⟨hw, hp⟩

/-- A value below 2^16 fits an unprefixed immediate. -/
theorem immFits_word (hi : Option Nat) (w : Nat) :
    immFits hi.isSome (BitVec.ofNat 32 (hi.getD 0 * 65536 + w % 65536)) = true := by
  cases hi with
  | some _ => rfl
  | none => simp [immFits]; omega

/-- A prefixable word decodes to an operation that has an encoding, prefixed as a prefix stands before it. -/
theorem decodeLong_spec {hi : Option Nat} {w : Nat} {o : Op} (h : decodeLong hi w = some o) :
    o.wf = true ∧ Op.prefixed o = hi.isSome := by
  have fits := immFits_word hi w
  unfold decodeLong at h
  split at h
  all_goals try split at h
  all_goals cases h
  all_goals exact ⟨fits, rfl⟩

/-- `NOP`, `RET`, `JR` and `CALLR` have an encoding and no prefix. -/
theorem decodeFlow_spec {w : Nat} {o : Op} (h : decodeFlow w = some o) : o.wf = true ∧ Op.prefixed o = false := by
  unfold decodeFlow at h
  split at h
  · cases h
  · split at h
    all_goals try split at h
    all_goals cases h
    all_goals exact ⟨rfl, rfl⟩

/-- An unprefixed word decodes to an operation that has an encoding, and no prefix. -/
theorem decodeWord_spec {w : Nat} {o : Op} (h : decodeWord w = some o) : o.wf = true ∧ Op.prefixed o = false := by
  unfold decodeWord at h
  split at h
  · obtain ⟨f, _, hk⟩ := Option.bind_eq_some_iff.mp h
    exact keepWf_spec hk rfl
  · obtain ⟨f, _, rfl⟩ := Option.map_eq_some_iff.mp h
    exact ⟨rfl, rfl⟩
  · exact decodeFlow_spec h
  · obtain ⟨f, _, hk⟩ := Option.bind_eq_some_iff.mp h
    exact keepWf_spec hk rfl
  · obtain ⟨f, _, hk⟩ := Option.bind_eq_some_iff.mp h
    exact keepWf_spec hk rfl
  · split at h
    · cases h
    · obtain ⟨f, _, rfl⟩ := Option.map_eq_some_iff.mp h
      exact ⟨rfl, rfl⟩
  · split at h
    · cases h
      exact ⟨rfl, rfl⟩
    · cases h
  · split at h
    · exact keepWf_spec h rfl
    · cases h
  · cases h; exact ⟨rfl, rfl⟩
  · cases h; exact ⟨rfl, rfl⟩
  · exact decodeLong_spec h

/-- What decodes has an encoding, and its length is one word and its prefix. -/
theorem decodeWords_spec {ws : List Nat} {o : Op} {len : Nat} (h : decodeWords ws = .op o len) :
    o.wf = true ∧ len = 1 + b2n (Op.prefixed o) := by
  unfold decodeWords at h
  split at h
  · cases h
  · split at h
    · split at h
      · cases h
      · split at h
        · cases h
        · split at h
          · next hd =>
            obtain ⟨hw, hp⟩ := decodeLong_spec hd
            cases h
            exact ⟨hw, by rw [hp]; rfl⟩
          · cases h
    · split at h
      · next hd =>
        obtain ⟨hw, hp⟩ := decodeWord_spec hd
        cases h
        exact ⟨hw, by rw [hp]; rfl⟩
      · cases h

end Sys2Proof

namespace Sys2Proof.Machine

open Sys2Proof.Claims

/-- An instruction that may issue has an encoding, and its length is one word and its prefix. -/
theorem coreReady_decodes {s : State} {i : Issue} {op : Op} {x : Item} {len : Nat} (h : CoreReady s i op x len) :
    op.wf = true ∧ len = 1 + b2n (Op.prefixed op) := by
  obtain ⟨_, _, _, hd, _, _⟩ := h
  exact decodeWords_spec hd

end Sys2Proof.Machine
end

section
/-! PROOFS. An instruction that changes no register: where its core goes on, and that nothing else moved. -/

namespace Sys2Proof.Claims

open Sys2Proof.Machine

/-- A later change of the core alone, which keeps its chain and its owner, counts no stroke. -/
theorem OneStroke.of_core {s t u : State} {i : Issue} {x : Item} (h : OneStroke s t i x)
    (blocks : u = { t with cores := u.cores }) (others : ∀ c, c ≠ i.core → u.core c = t.core c)
    (item : (u.core i.core).item = (t.core i.core).item) (owner : (u.core i.core).owner = (t.core i.core).owner) :
    OneStroke s u i x where
  blocks := by
    have hb := h.blocks
    generalize memMeets s (fetchEvent s i) = w at *
    rw [blocks, hb]
  caches := fun k hk => by rw [blocks]; exact h.caches k hk
  others := fun c hc => (others c hc).trans (h.others c hc)
  item := item.trans h.item
  owner := owner.trans h.owner

end Sys2Proof.Claims

namespace Sys2Proof.Machine

open Sys2Proof.Claims

theorem coreReady_item {s : State} {i : Issue} {op : Op} {x : Item} {len : Nat} (h : CoreReady s i op x len) :
    (s.core i.core).item = some x := h.1

theorem coreReady_readable {s : State} {i : Issue} {op : Op} {x : Item} {len : Nat} (h : CoreReady s i op x len) :
    MemEvent.readable (fetchEvent s i) = true := h.2.2.1

/-- An instruction acts on the register values that stood before it. -/
theorem rd_issueSt {s : State} {i : Issue} {op : Op} {x : Item} {len : Nat} (h : CoreReady s i op x len) (r : GReg) :
    rd (issueSt s i) i.core r = rd s i.core r := by
  simp [rd, issueSt_core h]

theorem ctx_issueSt {s : State} {i : Issue} {op : Op} {x : Item} {len : Nat} (h : CoreReady s i op x len) :
    ((issueSt s i).core i.core).ctx = (s.core i.core).ctx := by
  rw [issueSt_core h]

/-- Program counter and loop after an instruction of `len` words left by `f`. -/
def flowNext (k : Ctx) (len : Nat) : Flow → Nat × Option Loop
  | .seq => seqNext k len
  | .go n keep => (n, loopAfter k.loop keep n)

theorem leave_eq_moveTo (s : State) (c : CoreId) (len : Nat) (f : Flow) :
    leave s c len f = moveTo s c (flowNext (s.core c).ctx len f).1 (flowNext (s.core c).ctx len f).2 := by
  cases f with
  | seq => rfl
  | go n keep =>
    simp only [leave, flowNext, loopAfter]
    cases (s.core c).ctx.loop with
    | none => rfl
    | some l => simp [Option.filter]

theorem modCtx_core (s : State) (c : CoreId) (f : Ctx → Ctx) :
    (modCtx s c f).core c = { s.core c with ctx := f (s.core c).ctx } := by
  simp [modCtx]

theorem modCtx_others (s : State) {c d : CoreId} (f : Ctx → Ctx) (h : d ≠ c) : (modCtx s c f).core d = s.core d :=
  core_setCore_ne _ _ _ _ h

/-- A context that is written back as it stood changes nothing. -/
theorem modCtx_id (s : State) (c : CoreId) : modCtx s c id = s := by
  show { s with cores := s.cores.set c.val s.cores[c.val] c.isLt } = s
  simp

theorem addCycles_core {u : State} {c : CoreId} {x : Item} (n : Nat) (r : List GReg) (hx : (u.core c).item = some x) :
    (addCycles u c n r .no).core c =
      { u.core c with cycles := (u.core c).cycles + n, scrLate := ageScr (u.core c).scrLate r } := by
  simp [addCycles, hx]

theorem addCycles_others (u : State) {c e : CoreId} (n : Nat) (r : List GReg) (late : Late) (h : e ≠ c) :
    (addCycles u c n r late).core e = u.core e := by
  unfold addCycles
  simp only
  split
  · rfl
  · exact core_setCore_ne _ _ _ _ h

theorem addCycles_blocks (u : State) (c : CoreId) (n : Nat) (r : List GReg) (late : Late) :
    addCycles u c n r late = { u with cores := (addCycles u c n r late).cores } := by
  unfold addCycles
  simp only
  split <;> rfl

/-- The state in which the instruction acts counts one stroke. -/
theorem oneStroke_issueSt {s : State} {i : Issue} {op : Op} {x : Item} {len : Nat} (h : CoreReady s i op x len) :
    OneStroke s (issueSt s i) i x := by
  have hc := issueSt_core h
  obtain ⟨blocks, caches⟩ := issueSt_blocks (coreReady_readable h)
  exact { blocks, caches, others := fun c => issueSt_others h c, item := by rw [hc], owner := by rw [hc] }

/-- An instruction that changes its core's context by `f` alone, and goes on within the code. -/
theorem runOp_moves {s : State} {i : Issue} {op : Op} {x : Item} {len : Nat} {act : State → Item → Nat → Effect}
    (f : Ctx → Ctx) (fl : Flow) (n : Nat) (h : CoreReady s i op x len)
    (ha : act (issueSt s i) x len = .next { s := modCtx (issueSt s i) i.core f, flow := fl, extra := n })
    (hpc : (flowNext (f (s.core i.core).ctx) len fl).1 < x.code.length) :
    Moves s (runOp i op s act) i x
      { f (s.core i.core).ctx with
        pc := (flowNext (f (s.core i.core).ctx) len fl).1, loop := (flowNext (f (s.core i.core).ctx) len fl).2 } := by
  rw [runOp_next h ha, leave_eq_moveTo]
  simp only
  generalize 1 + sourceStall (s.core i.core) op + b2n (Op.prefixed op) + n = m
  have hx : ((modCtx (issueSt s i) i.core f).core i.core).item = some { x with strokes := x.strokes + 1 } := by
    rw [modCtx_core, issueSt_core h]
  have hcore := addCycles_core m (Op.sources op) hx
  rw [modCtx_core] at hcore
  have hs : OneStroke s (addCycles (modCtx (issueSt s i) i.core f) i.core m (Op.sources op) .no) i x :=
    (oneStroke_issueSt h).of_core (addCycles_blocks _ _ _ _ _)
      (fun c hc => (addCycles_others _ _ _ _ hc).trans (modCtx_others _ _ hc)) (by rw [hcore]) (by rw [hcore])
  generalize addCycles (modCtx (issueSt s i) i.core f) i.core m (Op.sources op) .no = u at *
  have hctx : (u.core i.core).ctx = f (s.core i.core).ctx := by rw [hcore, issueSt_core h]
  have hldm : (u.core i.core).ldm = (s.core i.core).ldm := by rw [hcore, issueSt_core h]
  rw [hctx, moveTo_inCode hs.item hpc]
  exact
    { hs.of_core rfl (fun c hc => modCtx_others _ _ hc) (by rw [modCtx_core]) (by rw [modCtx_core]) with
      ctx := by rw [modCtx_core, hctx]
      ldm := by rw [modCtx_core, hldm] }

end Sys2Proof.Machine
end

section
/-! PROOFS. Jumps, calls and returns (R182 to R187), and the hardware loop (R190 to R194). -/

namespace Sys2Proof.Machine

open Sys2Proof.Claims

@[simp] theorem loopAfter_keep (l : Option Loop) (n : Nat) : loopAfter l true n = l := by
  cases l <;> simp [loopAfter]

/-- A transfer whose target lies in the code completes (R187). -/
theorem transfer_inCode {x : Item} {t : Int} (u : State) (keep : Bool) (n : Nat) (ht : InCode x t) :
    transfer u x t keep n = .next { s := u, flow := .go t.toNat keep, extra := n } :=
  if_pos ht

/-- An instruction that transfers to a target in the code, and changes its core's context by `f` as it does. -/
theorem runOp_transfers {s : State} {i : Issue} {op : Op} {x : Item} {len : Nat} {act : State → Item → Nat → Effect} {t : Int}
    {k : Ctx} (f : Ctx → Ctx) (keep : Bool) (n : Nat) (h : CoreReady s i op x len) (ht : InCode x t)
    (ha : act (issueSt s i) x len = (transfer (issueSt s i) x t keep n).andCtx i.core f)
    (hk : { f (s.core i.core).ctx with pc := t.toNat, loop := loopAfter (f (s.core i.core).ctx).loop keep t.toNat } = k) :
    Moves s (runOp i op s act) i x k := by
  have hpc : t.toNat < x.code.length := by obtain ⟨h0, h1⟩ := ht; omega
  rw [transfer_inCode _ _ _ ht] at ha
  exact hk ▸ runOp_moves f (.go t.toNat keep) n h ha hpc

/-- An instruction that only transfers, to a target in the code. -/
theorem runOp_jumps {s : State} {i : Issue} {op : Op} {x : Item} {len : Nat} {act : State → Item → Nat → Effect} {t : Int}
    (n : Nat) (h : CoreReady s i op x len) (ht : InCode x t)
    (ha : act (issueSt s i) x len = transfer (issueSt s i) x t false n) :
    Moves s (runOp i op s act) i x
      { (s.core i.core).ctx with pc := t.toNat, loop := loopAfter (s.core i.core).ctx.loop false t.toNat } := by
  refine runOp_transfers id false n h ht ?_ rfl
  rw [ha, transfer_inCode _ _ _ ht]
  simp only [Effect.andCtx, modCtx_id]

/-- An instruction that pushes its return offset and transfers, the loop staying active (R182, R183, R195). -/
theorem runOp_calls {s : State} {i : Issue} {op : Op} {x : Item} {len : Nat} {act : State → Item → Nat → Effect} {t : Int}
    (n : Nat) (h : CoreReady s i op x len) (ht : InCode x t)
    (ha : act (issueSt s i) x len =
      (transfer (issueSt s i) x t true n).andCtx i.core (pushReturn ((s.core i.core).ctx.pc + 1))) :
    Moves s (runOp i op s act) i x
      { (s.core i.core).ctx with
        pc := t.toNat, stack := ((s.core i.core).ctx.pc + 1) :: (s.core i.core).ctx.stack } :=
  runOp_transfers _ true n h ht ha (by simp [pushReturn])

/-- An instruction that goes on in order, after changing its core's context by `f`. -/
theorem runOp_goesOn {s : State} {i : Issue} {op : Op} {x : Item} {len : Nat} {act : State → Item → Nat → Effect} {pc : Nat}
    {l : Option Loop} (f : Ctx → Ctx) (h : CoreReady s i op x len)
    (ha : act (issueSt s i) x len = .next { s := modCtx (issueSt s i) i.core f })
    (hseq : seqNext (f (s.core i.core).ctx) len = (pc, l)) (hpc : pc < x.code.length) :
    Moves s (runOp i op s act) i x { f (s.core i.core).ctx with pc := pc, loop := l } := by
  have hm := runOp_moves f .seq 0 h ha
  simp only [flowNext, hseq] at hm
  exact hm hpc

/-- One word that is not the last of an active body: the next word follows. -/
theorem seqNext_of_ne_last {k : Ctx} (h : ∀ l, k.loop = some l → k.pc ≠ l.last) : seqNext k 1 = (k.pc + 1, k.loop) := by
  unfold seqNext
  split
  · next l hl =>
    have := h l hl
    rw [if_neg (by omega), hl]
  · next hl => rw [hl]

/-- The last word of a body whose counter stands above 1: count down and return to the first (R194). -/
theorem seqNext_repeats {k : Ctx} {l : Loop} (hl : k.loop = some l) (hpc : k.pc = l.last) (hn : 1 < l.count.toNat) :
    seqNext k 1 = (l.top, some { l with count := l.count - 1 }) := by
  simp [seqNext, hl, hpc, hn]

/-- The last word of a body whose counter is spent: go on, with no loop active (R194). -/
theorem seqNext_exits {k : Ctx} {l : Loop} (hl : k.loop = some l) (hpc : k.pc = l.last) (hn : l.count.toNat ≤ 1) :
    seqNext k 1 = (k.pc + 1, none) := by
  simp [seqNext, hl, hpc, Nat.not_lt.mpr hn]

/-- `LOOP` with a counter that is not zero starts the body after it. The body has more than one word (R207), so `LOOP` is not
its last (R190, R193). -/
theorem runLoop_starts {s : State} {i : Issue} {x : Item} {len : Nat} {a : GReg} {e : BitVec 16}
    (h : CoreReady s i (.loop a e) x len) (hin : (s.core i.core).ctx.pc + e.toNat - 1 < x.code.length)
    (hn : rd s i.core a ≠ 0) :
    Moves s (runLoop i a e s) i x { (s.core i.core).ctx with
      pc := (s.core i.core).ctx.pc + 1
      loop := some ⟨rd s i.core a, (s.core i.core).ctx.pc + 1, (s.core i.core).ctx.pc + e.toNat - 1⟩ } := by
  obtain ⟨hw, rfl⟩ : (Op.loop a e).wf = true ∧ len = 1 := coreReady_decodes h
  have he : 2 ≤ e.toNat := of_decide_eq_true hw
  generalize hp : (s.core i.core).ctx.pc = p at hin ⊢
  generalize hl : Loop.mk (rd s i.core a) (p + 1) (p + e.toNat - 1) = l
  have hseq : seqNext { (s.core i.core).ctx with loop := some l } 1 = (p + 1, some l) := by
    rw [← hp]
    refine seqNext_of_ne_last ?_
    rintro _ ⟨rfl⟩
    simp only [hp, ← hl]
    omega
  refine runOp_goesOn (fun k => { k with loop := some l }) h ?_ hseq (by omega)
  simp only [ctx_issueSt h, rd_issueSt h, hp, hl, if_neg (Nat.not_le.mpr hin), if_neg hn]

/-- `LOOP` with a counter of zero transfers past the body, and no loop is active (R192). -/
theorem runLoop_skips {s : State} {i : Issue} {x : Item} {len : Nat} {a : GReg} {e : BitVec 16}
    (h : CoreReady s i (.loop a e) x len) (hin : (s.core i.core).ctx.pc + e.toNat - 1 < x.code.length)
    (hn : rd s i.core a = 0) (ht : InCode x ((s.core i.core).ctx.pc + e.toNat : Nat)) :
    Moves s (runLoop i a e s) i x
      { (s.core i.core).ctx with pc := (s.core i.core).ctx.pc + e.toNat, loop := none } := by
  refine runOp_transfers (fun k => { k with loop := none }) true 1 h ht ?_ rfl
  simp only [ctx_issueSt h, rd_issueSt h, if_neg (Nat.not_le.mpr hin), if_pos hn]

end Sys2Proof.Machine

end

section
/-! PROOFS. Little-endian values (R12), the bytes of a space, and loads (R112 to R116, R176, R177). -/

namespace Sys2Proof.Machine

open Sys2Proof.Claims

/-! ### Little-endian values -/

theorem leNat_lt (bs : List Byte) : leNat bs < 256 ^ bs.length := by
  induction bs with
  | nil => simp [leNat]
  | cons b bs ih =>
    have hb : b.toNat < 256 := b.isLt
    rw [leNat, List.length_cons, Nat.pow_succ]
    omega

/-- Byte `k` of a little-endian value is the string's byte `k`. -/
theorem byteOf_leNat : ∀ (bs : List Byte) (k : Nat), byteOf (leNat bs) k = (bs.getD k 0).toNat
  | [], k => by simp [byteOf, leNat]
  | b :: bs, 0 => by
    have hb : b.toNat < 256 := b.isLt
    simp [byteOf, leNat]
    omega
  | b :: bs, k + 1 => by
    have hb : b.toNat < 256 := b.isLt
    have tail : leNat (b :: bs) / 256 = leNat bs := by rw [leNat]; omega
    rw [List.getD_cons_succ, ← byteOf_leNat bs k, ← tail]
    simp only [byteOf, Nat.pow_succ', Nat.div_div_eq_div_mul]

/-! ### Bytes of a space -/

@[simp] theorem slice_length (bs : List Byte) (off n : Nat) : (slice bs off n).length = n := by
  simp only [slice, zeros, List.length_append, List.length_take, List.length_drop, List.length_replicate]
  omega

/-- A slice within its length holds the string's bytes, and zero beyond the string's end. -/
theorem slice_getD (bs : List Byte) (off : Nat) {n k : Nat} (h : k < n) : (slice bs off n).getD k 0 = bs.getD (off + k) 0 := by
  simp only [slice, zeros, List.getD_eq_getElem?_getD, List.getElem?_append]
  by_cases hk : off + k < bs.length
  · rw [if_pos (by simp; omega)]
    simp [h]
  · rw [if_neg (by simp; omega), List.getElem?_eq_none (Nat.not_lt.mp hk)]
    simp only [Option.getD_none, List.getElem?_replicate]
    split <;> rfl

@[simp] theorem readSpace_length (s : State) (c : CoreId) (x : Item) (sp : Space) (off n : Nat) :
    (readSpace s c x sp off n).length = n := by
  cases sp <;> simp [readSpace]

/-- A space is read byte by byte. -/
theorem readSpace_getD (s : State) (c : CoreId) (x : Item) (sp : Space) (off : Nat) {n k : Nat} (h : k < n) :
    (readSpace s c x sp off n).getD k 0 = spaceByte s c x sp (off + k) := by
  have head : ∀ bs : List Byte, bs.headD 0 = bs.getD 0 0 := fun bs => by cases bs <;> rfl
  unfold spaceByte
  rw [head]
  cases sp <;> simp only [readSpace, Mem.read_getD _ _ _ _ h, Mem.read_getD _ _ _ _ Nat.one_pos, slice_getD _ _ h,
    slice_getD _ _ Nat.one_pos, Nat.add_zero]

theorem Width.bytes_le (wd : Width) : Width.bytes wd ≤ 8 := by
  cases wd <;> decide

/-- At most eight bytes lose nothing in a word. -/
theorem toNat_leNat {bs : List Byte} (h : bs.length ≤ 8) : (BitVec.ofNat 64 (leNat bs)).toNat = leNat bs := by
  have h1 := leNat_lt bs
  have h2 : 256 ^ bs.length ≤ 256 ^ 8 := Nat.pow_le_pow_right (by decide) h
  rw [BitVec.toNat_ofNat, Nat.mod_eq_of_lt (by omega)]

/-! ### The access -/

theorem immS_toInt (p : Bool) (v : BitVec 32) : (immS p v).toInt = immInt p v := by
  cases p with
  | true => simp only [immS, immInt, if_true, BitVec.toInt_signExtend_of_le (show 32 ≤ 64 by decide)]
  | false =>
    simp only [immS, immInt, Bool.false_eq_true, if_false, BitVec.toInt_signExtend_of_le (show 16 ≤ 64 by decide),
      BitVec.truncate_eq_setWidth, BitVec.toInt_setWidth]

/-- The address of R176, as a number. -/
theorem memOffset_eq (s : State) (c : CoreId) (a : GReg) (p : Bool) (off : BitVec 32) :
    memOffset s c a p off = effAddr s c a p off := by
  have h : immS p off = BitVec.ofInt 64 (immInt p off) := by rw [← immS_toInt, BitVec.ofInt_toInt]
  rw [memOffset, effAddr, h, BitVec.toNat_add, BitVec.toNat_ofInt]
  omega

/-- An access that reaches its space meets none of the faults of R180. -/
theorem accessFault_of_reaches {s : State} {c : CoreId} {x : Item} {sp : Space} {store : Bool} {off n : Nat}
    (h : Reaches s c x sp store off n) : accessFault s c x sp store off n = none := by
  cases sp with
  | ldm => simp [accessFault, Nat.not_lt.mpr h]
  | req => obtain ⟨rfl, hn⟩ := h; simp [accessFault, Nat.not_lt.mpr hn]
  | con => obtain ⟨rfl, hn⟩ := h; simp [accessFault, Nat.not_lt.mpr hn]
  | rpl => obtain ⟨rfl, hn⟩ := h; simp [accessFault, Nat.not_lt.mpr hn]
  | scr => obtain ⟨hp, hn, hr⟩ := h; simp [accessFault, hp, hr, Nat.not_lt.mpr hn]

/-- What an instruction acts on differs from what stood before it in its core's chain, the memory controller and the program
cache alone. -/
theorem issueSt_eq {s : State} {i : Issue} {op : Op} {x : Item} {len : Nat} (h : CoreReady s i op x len) :
    ∃ m p, issueSt s i =
      { s.setCore i.core { s.core i.core with item := some { x with strokes := x.strokes + 1 } } with mec := m, pcache := p } := by
  obtain ⟨e, k, _, hf⟩ := fetched_changes s i (coreReady_readable h)
  refine ⟨e, vset s.pcache (crewOf i.core) k, ?_⟩
  rw [issueSt, hf]
  show ({ s with mec := e, pcache := _ } : State).setCore i.core { s.core i.core with item := (s.core i.core).item.map _ } = _
  rw [coreReady_item h]
  rfl

/-- The fetch and the stroke change no space. -/
theorem readSpace_issueSt {s : State} {i : Issue} {op : Op} {x : Item} {len : Nat} (h : CoreReady s i op x len) (sp : Space)
    (off n : Nat) : readSpace (issueSt s i) i.core x sp off n = readSpace s i.core x sp off n := by
  cases sp with
  | ldm => simp only [readSpace, issueSt_core h]
  | scr => obtain ⟨m, p, he⟩ := issueSt_eq h; rw [he]; rfl
  | req | rpl | con => rfl

/-- The fetch and the stroke leave the faults of an access as they were. -/
theorem accessFault_issueSt {s : State} {i : Issue} {op : Op} {x : Item} {len : Nat} (h : CoreReady s i op x len) (sp : Space)
    (store : Bool) (off n : Nat) :
    accessFault (issueSt s i) i.core x sp store off n = accessFault s i.core x sp store off n := by
  obtain ⟨m, p, he⟩ := issueSt_eq h
  rw [he]
  rfl

/-- The fetch and the stroke start and end no job. -/
theorem bytesBusy_issueSt {s : State} {i : Issue} {op : Op} {x : Item} {len : Nat} (h : CoreReady s i op x len) (r : BufRef) :
    bytesBusy (issueSt s i) i.core r = bytesBusy s i.core r := by
  have hw : pendingWrites ((issueSt s i).core i.core) = pendingWrites (s.core i.core) := by rw [issueSt_core h]; rfl
  have hj : allSymJobs (issueSt s i) = allSymJobs s := by obtain ⟨m, p, he⟩ := issueSt_eq h; rw [he]; rfl
  rw [bytesBusy, bytesBusy, hw, hj]

/-! ### A load that takes program lines in -/

/-- The program cache has no part in a register write and its cycles. -/
theorem addCycles_wr_pcache (u : State) (k : Vector PCache 8) (c : CoreId) (d : GReg) (v : Word) (n : Nat) (r : List GReg)
    (late : Late) :
    addCycles (wr { u with pcache := k } c d v) c n r late = { addCycles (wr u c d v) c n r late with pcache := k } := by
  have hc : State.core { u with pcache := k } c = u.core c := rfl
  unfold addCycles wr
  simp only [core_setCore_same, hc]
  split <;> rfl

/-- The program cache has no part in going on within the code. -/
theorem moveTo_pcache {u : State} {c : CoreId} {x : Item} {pc : Nat} {l : Option Loop} (k : Vector PCache 8)
    (hx : (u.core c).item = some x) (hpc : pc < x.code.length) :
    moveTo { u with pcache := k } c pc l = { moveTo u c pc l with pcache := k } := by
  rw [moveTo_inCode hx hpc, moveTo_inCode (u := { u with pcache := k }) hx hpc]
  rfl

/-- An instruction that retires has retired all the same when its crew's program cache took lines in. -/
theorem retires_pcache {s t : State} {i : Issue} {x : Item} {len : Nat} {d : GReg} {v : Word} (k : Vector PCache 8)
    (h : Retires s t i x len d v) (hk : ∀ n, n ≠ crewOf i.core → vget k n {} = vget s.pcache n {}) :
    Retires s { t with pcache := k } i x len d v :=
  { h with
    blocks := by
      have hb := h.blocks
      generalize memMeets s (fetchEvent s i) = w at *
      rw [hb]
    caches := hk }

/-- A register write of any value moves the core on alike. -/
theorem seqNext_wg (k : Ctx) (d : GReg) (v : Word) (len : Nat) : seqNext (k.wg d v) len = seqNext k len := by
  unfold Ctx.wg
  split <;> rfl

/-- The program cache has no part in an instruction that writes a register and goes on within the code. -/
theorem leave_wr_pcache {u : State} {c : CoreId} {x : Item} {len : Nat} (k : Vector PCache 8) (d : GReg) (v : Word) (n : Nat)
    (r : List GReg) (late : Late) (hx : (u.core c).item = some x) (hpc : (seqNext (u.core c).ctx len).1 < x.code.length) :
    leave (addCycles (wr { u with pcache := k } c d v) c n r late) c len .seq =
      { leave (addCycles (wr u c d v) c n r late) c len .seq with pcache := k } := by
  obtain ⟨_, _, _, _, hc⟩ := addCycles_wr_core u c x d v n r late hx
  rw [addCycles_wr_pcache, leave_eq_moveTo, leave_eq_moveTo]
  generalize addCycles (wr u c d v) c n r late = w at *
  have hw : (w.core c).item = some x := by rw [hc]; exact hx
  have hseq : seqNext (w.core c).ctx len = seqNext (u.core c).ctx len := by rw [hc]; exact seqNext_wg _ _ _ _
  rw [← hseq] at hpc
  exact moveTo_pcache k hw hpc

/-- An instruction that takes program lines in and writes `v` to `d` retires. -/
theorem retires_of_wr_filled {s : State} {i : Issue} {op : Op} {x : Item} {len : Nat} (l : List PLine) (d : GReg) (v : Word)
    (n : Nat) (r : List GReg) (late : Late) (h : CoreReady s i op x len) (hin : StaysInCode s i x len) :
    Retires s
      (leave (addCycles (wr (fillProg (issueSt s i) (crewOf i.core) l) i.core d v) i.core n r late) i.core len .seq)
      i x len d v := by
  have hx : ((issueSt s i).core i.core).item = some { x with strokes := x.strokes + 1 } := by rw [issueSt_core h]
  have hpc : (seqNext ((issueSt s i).core i.core).ctx len).1 < x.code.length := by rw [issueSt_core h]; exact hin
  obtain ⟨_, hcaches⟩ := issueSt_blocks (coreReady_readable h)
  unfold fillProg
  rw [leave_wr_pcache _ d v n r late hx hpc]
  exact retires_pcache _ (retires_of_wr d v n r late h hin) fun k hk => (vget_vset_ne _ _ _ _ _ hk).trans (hcaches k hk)

/-- What a load reads: the bytes of the space as a number. -/
def loadValue (s : State) (c : CoreId) (x : Item) (sp : Space) (off n : Nat) : Word :=
  BitVec.ofNat 64 (leNat (readSpace s c x sp off n))

/-- A loaded value is zero-extended, and its bytes are those of the space, byte 0 lowest (R12, R177). -/
theorem loadValue_bytes (s : State) (c : CoreId) (x : Item) (sp : Space) (off : Nat) (wd : Width) :
    (loadValue s c x sp off (Width.bytes wd)).toNat < 256 ^ Width.bytes wd ∧
      ∀ k < Width.bytes wd,
        byteOf (loadValue s c x sp off (Width.bytes wd)).toNat k = (spaceByte s c x sp (off + k)).toNat := by
  have hv : (loadValue s c x sp off (Width.bytes wd)).toNat = leNat (readSpace s c x sp off (Width.bytes wd)) :=
    toNat_leNat (by rw [readSpace_length]; exact Width.bytes_le wd)
  rw [hv]
  refine ⟨by simpa using leNat_lt (readSpace s c x sp off (Width.bytes wd)), fun k hk => ?_⟩
  rw [byteOf_leNat, readSpace_getD _ _ _ _ _ hk]

theorem memMeets_ok (s : State) : memMeets s .ok = s := rfl

theorem progEvent_ok (s : State) (crew : Nat) (l : List PLine) : progEvent s crew l .ok = .ok := by
  simp [progEvent]

/-- Program lines that come in change no space. -/
theorem readSpace_fillProg (s : State) (crew : Nat) (l : List PLine) (c : CoreId) (x : Item) (sp : Space) (off n : Nat) :
    readSpace (fillProg s crew l) c x sp off n = readSpace s c x sp off n := by
  cases sp <;> rfl

/-- A load that reaches its space, finds its bytes free and meets no error retires with what it read. -/
theorem runLoad_retires {s : State} {i : Issue} {sp : Space} {wd : Width} {d a : GReg} {p : Bool} {off : BitVec 32}
    {m : MemEvent} {x : Item} {len : Nat} (h : CoreReady s i (.mem sp false wd d a p off) x len)
    (hin : StaysInCode s i x len)
    (hr : Reaches s i.core x sp false (effAddr s i.core a p off) (Width.bytes wd))
    (hfree : bytesBusy s i.core (rangeOf sp (effAddr s i.core a p off) (Width.bytes wd)) = false)
    (hm : sp = .req ∨ sp = .con → m = .ok) :
    Retires s (runLoad i sp wd d a p off m s) i x len d
      (loadValue s i.core x sp (effAddr s i.core a p off) (Width.bytes wd)) := by
  have ho : memOffset (issueSt s i) i.core a p off = effAddr s i.core a p off := by
    rw [memOffset_eq, effAddr, effAddr, rd_issueSt h]
  have hfault := (accessFault_issueSt h _ _ _ _).trans (accessFault_of_reaches hr)
  have hbusy := (bytesBusy_issueSt h _).trans hfree
  have hval : ∀ l, readSpace (fillProg (issueSt s i) (crewOf i.core) l) i.core x sp (effAddr s i.core a p off)
      (Width.bytes wd) = readSpace s i.core x sp (effAddr s i.core a p off) (Width.bytes wd) :=
    fun l => (readSpace_fillProg _ _ l _ _ _ _ _).trans (readSpace_issueSt h _ _ _)
  generalize effAddr s i.core a p off = o at *
  unfold runLoad
  rw [runOp_next h (d :=
    { s := wr (fillProg (issueSt s i) (crewOf i.core) (if sp = .con then progLines x true o (Width.bytes wd) else [])) i.core d
        (loadValue s i.core x sp o (Width.bytes wd))
      extra := crossCost sp o (Width.bytes wd), late := if sp = .scr then .scr d else .cycles d 1 }) ?_]
  · exact retires_of_wr_filled _ _ _ _ _ _ h hin
  · simp only [ho, hfault, hbusy]
    cases sp with
    | ldm | rpl | scr => simp [MemEvent.readable, memMeets_ok, hval, loadValue]
    | req => obtain rfl := hm (.inl rfl); simp [MemEvent.readable, memMeets_ok, hval, loadValue]
    | con => obtain rfl := hm (.inr rfl); simp [MemEvent.readable, memMeets_ok, progEvent_ok, hval, loadValue]

end Sys2Proof.Machine
end

section
/-! PROOFS. The statements of chapter 04. -/

open Sys2Proof Sys2Proof.Machine Sys2Proof.Claims

/-- Settles O3: the instruction completes with `mulResult` of its operands, which is what Table 4.5 gives. -/
theorem multiplyDivideResults : Obligations.MultiplyDivideResults := by
  intro s c i f d a b x len hop h hin
  refine ⟨_, _, exec_of_op_mul hop s, mulResult_gives f _ _, ?_⟩
  unfold runMul
  rw [runOp_next h rfl, rd_issueSt h, rd_issueSt h]
  exact retires_of_wr d _ _ _ _ h hin

/-- Settles O5: the load retires with `loadValue`, whose bytes are those of the space. -/
theorem loadsReadTheirSpace : Obligations.LoadsReadTheirSpace := by
  intro s i sp wd d a p off m x len h hin hr hfree hm
  obtain ⟨hlt, hbytes⟩ := loadValue_bytes s i.core x sp (effAddr s i.core a p off) wd
  refine ⟨runLoad i sp wd d a p off m s, _, ?_, hlt, hbytes, runLoad_retires h hin hr hfree hm⟩
  cases wd <;> rfl

/-- Settles O8: each of the five is a transfer to a target in the code, with a push, a pop or neither. -/
theorem jumpsAndCallsTransfer : Obligations.JumpsAndCallsTransfer := by
  intro s i x len
  refine ⟨fun off h ht => ⟨_, rfl, ?_⟩, fun off h ht hroom => ⟨_, rfl, ?_⟩, fun a h ht => ⟨_, rfl, ?_⟩,
    fun a h ht hroom => ⟨_, rfl, ?_⟩, fun n rest h hstack ht => ⟨_, rfl, ?_⟩⟩
  · exact runOp_jumps 1 h ht (by simp [ctx_issueSt h])
  · have hlen : len = 1 := (coreReady_decodes h).2
    exact runOp_calls 1 h ht (by simp [ctx_issueSt h, stackDepth, Nat.not_le.mpr hroom, hlen])
  · exact runOp_jumps 2 h ht (by simp [rd_issueSt h])
  · have hlen : len = 1 := (coreReady_decodes h).2
    exact runOp_calls 2 h ht (by simp [ctx_issueSt h, rd_issueSt h, stackDepth, Nat.not_le.mpr hroom, hlen])
  · exact runOp_transfers (fun k => { k with stack := rest }) true 1 h ht
      (by simp only [ctx_issueSt h, hstack]) (by simp)

/-- Settles O9: a body is longer than one word (R207), so `LOOP` itself is not its last; then `seqNext` has three cases. -/
theorem loopsCountDown : Obligations.LoopsCountDown := by
  intro s i x len
  refine ⟨fun a e h hin => ⟨fun hn => ⟨_, rfl, runLoop_starts h hin hn⟩, fun hn ht => ⟨_, rfl, runLoop_skips h hin hn ht⟩⟩,
    fun h => ?_⟩
  obtain ⟨_, rfl⟩ : Op.nop.wf = true ∧ len = 1 := coreReady_decodes h
  have hnop : .next { s := issueSt s i } = Effect.next { s := modCtx (issueSt s i) i.core id } := by rw [modCtx_id]
  refine ⟨fun l hl hpc hn hin => ⟨_, rfl, ?_⟩, fun l hl hpc hn hin => ⟨_, rfl, ?_⟩, fun hl hin => ⟨_, rfl, ?_⟩⟩
  · exact runOp_goesOn id h hnop (seqNext_repeats hl hpc hn) hin
  · exact runOp_goesOn id h hnop (seqNext_exits hl hpc hn) hin
  · exact runOp_goesOn id h hnop (seqNext_of_ne_last hl) hin
end
